-- ==== Sys2Proof/Word.lean ====
section
/-! DEFINITION. The one-bit values of the block, each with a type of its own so that a register value and an
electrical level cannot be confused (rules R6, R15 to R17 and the conflict 90_conflicts.md C2), and the widths of
its two wider registers (R12, R14). The bit codes of these values (R45) stand in Decode.lean. -/

namespace Sys2Proof

/-- An electrical level: `low` is 0, `high` is 1 (R6). A line reads active when it reads `low`. -/
inductive Level where
  | low
  | high
deriving DecidableEq, Repr, Inhabited

/-- The other level (`1 − s` of R16, R17 and R21). -/
def Level.flip : Level → Level
  | .low => .high
  | .high => .low

/-- The direction of a line: `input` is the spec's IN (0), `output` its OUT (1) (R15, R45). -/
inductive Direction where
  | input
  | output
deriving DecidableEq, Repr, Inhabited

/-- The two values of the register `dev_drv`: DEASSERTED (0) and ASSERTED (1) (R16). They are names, not levels:
the level each puts on the line is the parameter `DEV_ASSERT_LEVEL`. -/
inductive Drive where
  | deasserted
  | asserted
deriving DecidableEq, Repr, Inhabited

/-- The two values of the register `emit`: OFF (0) and ON (1) (R17). -/
inductive Emitter where
  | off
  | on
deriving DecidableEq, Repr, Inhabited

/-- The code held by `phase`: five bits, `mode` in bits 4:3 and `step` in bits 2:0 (R12, R42). -/
abbrev PhaseCode := BitVec 5

/-- The pulse-sequence counter `cnt`: four bits, unsigned (R14). -/
abbrev Count := BitVec 4

/-- A value of `WDT_TIMEOUT`, an integer of at least 1 (R5, R79). -/
abbrev Timeout := { n : Nat // 1 ≤ n }

end Sys2Proof
end

