-- ==== Sys2Proof/Syntax.lean ====
section
/-! DEFINITION. The 18 operations of the block, one constructor per row of spec/opcode_table.json (R42), and the
three lines of the line space (R26). No operation has an operand (R46), so no constructor has a field. -/

namespace Sys2Proof

/-- The operations of R42 in the order of its table. -/
inductive Instr where
  /-- First check of a loop pass (R52). -/
  | dspIr
  /-- Second check of a loop pass (R53). -/
  | dspDev
  /-- Reset the liveness timer, end of a loop pass (R54). -/
  | dspKick
  /-- Claim DEVICE_SIGNAL (R56). -/
  | i2dClaim
  /-- Drive the idle level (R57). -/
  | i2dInit
  /-- End of the reset pulse (R58). -/
  | i2dReset
  /-- End of the start pulse (R59). -/
  | i2dStart
  /-- Rising edge of a data pulse (R60). -/
  | i2dDataR
  /-- Falling edge of a data pulse (R61). -/
  | i2dDataF
  /-- The stop edge (R62). -/
  | i2dStop
  /-- Relinquish DEVICE_SIGNAL (R63). -/
  | i2dRelease
  /-- Start emitting (R65). -/
  | d2iOn
  /-- End of the reset pulse (R66). -/
  | d2iReset
  /-- End of the start pulse (R67). -/
  | d2iStart
  /-- Rising edge of a data pulse (R68). -/
  | d2iDataR
  /-- Falling edge of a data pulse (R69). -/
  | d2iDataF
  /-- The stop edge (R70). -/
  | d2iStop
  /-- The self-echo guard (R71). -/
  | d2iGuard
deriving DecidableEq, Repr

/-- The three locations of the line space (R26). -/
inductive Line where
  | irEmit
  | irReceive
  | deviceSignal
deriving DecidableEq, Repr

end Sys2Proof
end

