-- ==== Sys2Proof/WellFormed.lean ====
section
/-! DEFINITION. The checks on raw numbers. An `Instr` has no operand (R46), so every term of `Instr` is well formed and
there is no check on it; what can be ill formed is a number that stands for something: a `phase` code (R47), a line
identifier (R44), a timeout (R79). `legalPhase` is written from the list of reserved codes of R47, not from the
table of R42 that the decoder follows. -/

namespace Sys2Proof.WellFormed

/-- A `phase` code that is not one of the 14 reserved codes 0x03 to 0x07, 0x11 and 0x18 to 0x1F (R47). -/
def legalPhase (c : PhaseCode) : Bool :=
  !(decide (0x03 ≤ c.toNat) && decide (c.toNat ≤ 0x07)
    || decide (c.toNat = 0x11)
    || decide (0x18 ≤ c.toNat) && decide (c.toNat ≤ 0x1F))

/-- A line identifier other than the reserved value 3 (R44). -/
def legalLineCode (c : BitVec 2) : Bool :=
  decide (c ≠ 3#2)

/-- A timeout of at least one step (R5, R79). -/
def legalTimeout (n : Nat) : Bool :=
  decide (1 ≤ n)

end Sys2Proof.WellFormed
end

