-- ==== Sys2Proof/Decode.lean ====
section
/-! DEFINITION. From the 5-bit code of `phase` to the operation it selects, and back (R42, R43, R47), and the codes of
lines and one-bit values (R44, R45). The decoder matches the two fields of the code; the encoder concatenates them.
Decoding is total and depends on the code alone (R51): a reserved code is rejected by name. -/

namespace Sys2Proof

/-- Why a code selects no operation (R47). Both cases are safe: nothing is run. -/
inductive DecodeError where
  /-- `mode = 11` (0x18 to 0x1F). -/
  | reservedMode (code : PhaseCode)
  /-- A step that its mode does not have (0x03 to 0x07, 0x11). -/
  | reservedStep (code : PhaseCode)
deriving DecidableEq, Repr

/-- `mode = phase[4:3]` (R42). -/
def modeField (c : PhaseCode) : BitVec 2 := c.extractLsb' 3 2

/-- `step = phase[2:0]` (R42). -/
def stepField (c : PhaseCode) : BitVec 3 := c.extractLsb' 0 3

/-- Mode `00`, the dispatch loop. -/
def decodeDispatch (c : PhaseCode) : Except DecodeError Instr :=
  match (stepField c).toNat with
  | 0 => .ok .dspIr
  | 1 => .ok .dspDev
  | 2 => .ok .dspKick
  | _ => .error (.reservedStep c)

/-- Mode `01`, `ir2device`: all eight steps are operations. -/
def decodeIr2Device (c : PhaseCode) : Except DecodeError Instr :=
  match (stepField c).toNat with
  | 0 => .ok .i2dClaim
  | 1 => .ok .i2dInit
  | 2 => .ok .i2dReset
  | 3 => .ok .i2dStart
  | 4 => .ok .i2dDataR
  | 5 => .ok .i2dDataF
  | 6 => .ok .i2dStop
  | 7 => .ok .i2dRelease
  | _ => .error (.reservedStep c)

/-- Mode `10`, `device2ir`: step `001` is reserved. -/
def decodeDevice2Ir (c : PhaseCode) : Except DecodeError Instr :=
  match (stepField c).toNat with
  | 0 => .ok .d2iOn
  | 2 => .ok .d2iReset
  | 3 => .ok .d2iStart
  | 4 => .ok .d2iDataR
  | 5 => .ok .d2iDataF
  | 6 => .ok .d2iStop
  | 7 => .ok .d2iGuard
  | _ => .error (.reservedStep c)

/-- The operation a `phase` code selects (R42), or the reason it selects none (R47). -/
def decode (c : PhaseCode) : Except DecodeError Instr :=
  match (modeField c).toNat with
  | 0 => decodeDispatch c
  | 1 => decodeIr2Device c
  | 2 => decodeDevice2Ir c
  | _ => .error (.reservedMode c)

/-- The code `mode_step` (R7, R42). -/
def phaseCode (mode : BitVec 2) (step : BitVec 3) : PhaseCode := mode ++ step

/-- The code of an operation, from the column `code` of R42. -/
def encode : Instr → PhaseCode
  | .dspIr => phaseCode 0b00#2 0b000#3
  | .dspDev => phaseCode 0b00#2 0b001#3
  | .dspKick => phaseCode 0b00#2 0b010#3
  | .i2dClaim => phaseCode 0b01#2 0b000#3
  | .i2dInit => phaseCode 0b01#2 0b001#3
  | .i2dReset => phaseCode 0b01#2 0b010#3
  | .i2dStart => phaseCode 0b01#2 0b011#3
  | .i2dDataR => phaseCode 0b01#2 0b100#3
  | .i2dDataF => phaseCode 0b01#2 0b101#3
  | .i2dStop => phaseCode 0b01#2 0b110#3
  | .i2dRelease => phaseCode 0b01#2 0b111#3
  | .d2iOn => phaseCode 0b10#2 0b000#3
  | .d2iReset => phaseCode 0b10#2 0b010#3
  | .d2iStart => phaseCode 0b10#2 0b011#3
  | .d2iDataR => phaseCode 0b10#2 0b100#3
  | .d2iDataF => phaseCode 0b10#2 0b101#3
  | .d2iStop => phaseCode 0b10#2 0b110#3
  | .d2iGuard => phaseCode 0b10#2 0b111#3

/-- The five bits of an opcode-table word (bits 4:0; the format PH has no other, R42). Bits above bit 4 are no part
of an operation. DESIGN CHOICE (log 11), safe. -/
def tableCode (nbits w : Nat) : PhaseCode := BitVec.ofNat 5 (w % 2 ^ nbits)

/-- The operation the decoder reads from an opcode-table word. -/
def decodeTableWord (nbits w : Nat) : Option Instr :=
  match decode (tableCode nbits w) with
  | .ok i => some i
  | .error _ => none

/-- The identifier of a line (R44). -/
def Line.code : Line → BitVec 2
  | .irEmit => 0#2
  | .irReceive => 1#2
  | .deviceSignal => 2#2

/-- The line an identifier names; 3 is reserved (R44). -/
def Line.ofCode (c : BitVec 2) : Option Line :=
  match c.toNat with
  | 0 => some .irEmit
  | 1 => some .irReceive
  | 2 => some .deviceSignal
  | _ => none

/-- Low is 0, high is 1 (R6, R45). -/
def Level.code : Level → BitVec 1
  | .low => 0#1
  | .high => 1#1

def Level.ofCode (b : BitVec 1) : Level := if b = 1#1 then .high else .low

/-- IN is 0, OUT is 1 (R45). -/
def Direction.code : Direction → BitVec 1
  | .input => 0#1
  | .output => 1#1

def Direction.ofCode (b : BitVec 1) : Direction := if b = 1#1 then .output else .input

/-- DEASSERTED is 0, ASSERTED is 1 (R45). -/
def Drive.code : Drive → BitVec 1
  | .deasserted => 0#1
  | .asserted => 1#1

def Drive.ofCode (b : BitVec 1) : Drive := if b = 1#1 then .asserted else .deasserted

/-- OFF is 0, ON is 1 (R45). -/
def Emitter.code : Emitter → BitVec 1
  | .off => 0#1
  | .on => 1#1

def Emitter.ofCode (b : BitVec 1) : Emitter := if b = 1#1 then .on else .off

end Sys2Proof
end

