-- ==== Sys2Proof/Config.lean ====
section
/-! DEFINITION. What the spec fixes for the block, what it leaves as a parameter (R5), and the values the environment
chooses freely (R10). The parameters that some rule reads are the fields of `Params`, which State carries and no step
writes, so that a statement about every state is a statement about every parameter value (log 4). A constant declared
`opaque` has no body: nothing can be proved of its value. -/

namespace Sys2Proof

/-- What the outside world presents at one step (R9, R10, R19): the two line levels, read after any synchroniser
(R95), and whether power is cycled at this step (R79, R97 (a)). `rst` is computed from `powerOn` and the liveness
timer (R79). -/
structure Sample where
  powerOn : Bool
  irRx : Level
  devIn : Level
deriving DecidableEq, Repr, Inhabited

namespace Config

/-- `N_LINES` (R5). -/
def nLines : Nat := 3

/-- `N_DATA` (R5): data positions of an exchange. -/
def nData : Nat := 16

/-- `N_WAITS` (R5): 1 + 1 + 2 × `N_DATA` + 1 edge waits on the source line. -/
def nWaits : Nat := 1 + 1 + 2 * nData + 1

/-- `N_PULSES` (R5): the stop edge is not counted (90_conflicts.md C1). -/
def nPulses : Nat := 1 + 1 + nData

/-- `WDT_TIMEOUT` less one. The timeout is OPEN in the spec (R5, D12): no value is chosen. -/
opaque wdtSpare : Nat

/-- The timeout of the machine that `State.reset` describes: some number of at least 1 (log 4). -/
def wdtTimeout : Timeout := ⟨wdtSpare + 1, Nat.succ_pos _⟩

/-- The environment's choice of the inputs at step `k` (R10), for the steps that a state's `tape` does not list (log 2). -/
opaque envSample : Nat → Sample

/-- What reading back the IR_EMIT line would give at step `k` (R29, U2): any value, and no operation reads it (log 10). -/
opaque irEmitReadBack : Nat → Level

/-- `F_CLK` (R5, R9): OPEN, and no rule reads it (log 19). -/
opaque fClk : Nat

/-- `PIN_IR_EMIT`, `PIN_IR_RECEIVE`, `PIN_DEVICE_SIGNAL` (R5, R36): OPEN, and no rule reads them (log 19). -/
opaque pin : Line → Nat

end Config

/-- The parameters that a rule reads, with the spec's defaults (R5). -/
structure Params where
  /-- `DEV_ASSERT_LEVEL`, default 1 (R16, D8). -/
  devAssertLevel : Level := .high
  /-- `EMIT_ON_LEVEL`, default 0 (R17, D9). -/
  emitOnLevel : Level := .low
  /-- `DEV_DRV_RESET`, default 0 (R25, D10). -/
  devDrvReset : Drive := .deasserted
  /-- `WDT_TIMEOUT` (R79, D12): no default; `Config.wdtTimeout` is an unknown number. -/
  wdtTimeout : Timeout := Config.wdtTimeout
deriving DecidableEq, Repr

end Sys2Proof
end

