-- ==== Sys2Proof/Machine/State.lean ====
section
/-! DEFINITION. The state of the machine, the reasons a step can stop, and the state right after reset. -/

namespace Sys2Proof.Machine

/-- The five registers of the block (R11), as one tuple: the spec's `S = (phase, cnt, dev_oe, dev_drv, emit)`. It is a view
of State, for statements and tests. -/
structure Regs where
  phase : PhaseCode
  cnt : Count
  devOe : Direction
  devDrv : Drive
  emit : Emitter
deriving DecidableEq, Repr

/-- Everything the spec gives the machine: the block's registers (R11), the liveness timer's count (R79), the parameters
of this instance (R5), and the inputs the environment presents from this step on (R10). -/
structure State where
  /-- The sequence position (R12), the code of the operation this step performs. Bit level, so it can hold a reserved
  code (R47, U7; log 1). -/
  phase : PhaseCode
  /-- The pulse-sequence counter (R14). -/
  cnt : Count
  /-- The direction register of DEVICE_SIGNAL (R15). -/
  devOe : Direction
  /-- The level register of DEVICE_SIGNAL (R16). -/
  devDrv : Drive
  /-- The level register of IR_EMIT (R17). -/
  emit : Emitter
  /-- The liveness timer's step counter `wdt_cnt` (R79). The block cannot read it (R23 (a)). -/
  wdtCnt : Nat
  /-- The parameters of this instance (R5). No step writes them. -/
  params : Params
  /-- The inputs of this step (the head) and of the steps after it, as far as they are listed. A step past the end of
  the list takes the free value `Config.envSample` (log 2). -/
  tape : List Sample
  /-- The step number `k` (R9). The model's own field: it selects the free values (log 15). -/
  stepNo : Nat
deriving DecidableEq, Repr

/-- The registers `S` of a state (R11). -/
def State.regs (s : State) : Regs :=
  { phase := s.phase, cnt := s.cnt, devOe := s.devOe, devDrv := s.devDrv, emit := s.emit }

/-- Why the machine stops. -/
inductive Fault where
  /-- A step, without `rst`, from one of the 14 reserved codes of `phase` (R47; U7 and V49: `fault` in a bit-level model).
  Raised by the fetch of `step`. Safe: the machine stops where the spec defines no successor. -/
  | reservedPhase (code : PhaseCode)
deriving DecidableEq, Repr

/-- Why the model has no meaning for an operation. -/
inductive Refusal where
  /-- The operation has no meaning in this model. Raised by an arm of `exec`; no arm raises it now. Safe. -/
  | notModelled (mnemonic : String)
deriving DecidableEq, Repr

/-- The state after a `Restart` (R25, R85) of the machine with parameters `p` whose environment will present `tape`. The
values of `cnt` and `emit` are DESIGN CHOICE (log 6), unsafe; `dev_drv` takes the parameter `DEV_DRV_RESET`. -/
def State.resetWith (p : Params) (tape : List Sample) : State :=
  { phase := 0b00000#5
    cnt := 0#4
    devOe := .input
    devDrv := p.devDrvReset
    emit := .off
    wdtCnt := 0
    params := p
    tape := tape
    stepNo := 1 }

/-- The machine right after reset: `S(1)` of R85, the spec's default parameters, an unknown timeout, and an
environment of which nothing is known. -/
def State.reset : State := State.resetWith {} []

end Sys2Proof.Machine
end

