-- ==== Sys2Proof/Machine/Operands.lean ====
section
/-! DEFINITION. What an operation can read: the inputs of this step and the three lines (R19, R26 to R29). No operation
has an operand, an immediate or an addressing mode (R46); the line an operation reads is fixed by its code. -/

namespace Sys2Proof.Machine

/-- The inputs presented at this step (R9, R10). -/
def State.sample (s : State) : Sample :=
  s.tape.headD (Config.envSample s.stepNo)

/-- The input `ir_rx` (R19). -/
def State.irRx (s : State) : Level := s.sample.irRx

/-- The input `dev_in` (R19): the environment's choice also while `dev_oe = 1` (R29, R41, D17). -/
def State.devIn (s : State) : Level := s.sample.devIn

/-- `power_on` of this step (R79). -/
def State.powerOn (s : State) : Bool := s.sample.powerOn

/-- `ReadLevel(line)` (R29): the input sample of this step. Reading IR_EMIT, which no operation does, would give a
free value (log 10). -/
def readLevel (l : Line) (s : State) : Level :=
  match l with
  | .irReceive => s.irRx
  | .deviceSignal => s.devIn
  | .irEmit => Config.irEmitReadBack s.stepNo

/-- The direction of a line: two are hardwired (R18), DEVICE_SIGNAL's is the register `dev_oe` (R15, R27). -/
def direction (l : Line) (s : State) : Direction :=
  match l with
  | .irEmit => .output
  | .irReceive => .input
  | .deviceSignal => s.devOe

/-- The counter value of the last data position, `N_DATA − 1` (R14, R46). -/
def terminalCount : Count := 15#4

/-- The level mux of `ir2device` (R21): `dev_drv <- s`. -/
def Drive.ofLevel : Level → Drive
  | .low => .deasserted
  | .high => .asserted

/-- The level mux of `device2ir` (R21): `emit <- 1 − s`. -/
def Emitter.ofLevel : Level → Emitter
  | .low => .on
  | .high => .off

end Sys2Proof.Machine
end

