-- ==== Sys2Proof/Machine/Outputs.lean ====
section
/-! DEFINITION. The four outputs, each a function of the state alone (R20), and what the block puts on DEVICE_SIGNAL
(R41). -/

namespace Sys2Proof.Machine

/-- The level that a value of `dev_drv` puts on DEVICE_SIGNAL (R16). -/
def driveLevel (p : Params) : Drive → Level
  | .asserted => p.devAssertLevel
  | .deasserted => p.devAssertLevel.flip

/-- The level that a value of `emit` puts on IR_EMIT (R17). -/
def emitLevel (p : Params) : Emitter → Level
  | .on => p.emitOnLevel
  | .off => p.emitOnLevel.flip

/-- `dev_oe_pad` (R20). -/
def devOePad (s : State) : Direction := s.devOe

/-- `dev_out_pad` (R16, R20); meaningful only while `dev_oe = 1`. -/
def devOutPad (s : State) : Level := driveLevel s.params s.devDrv

/-- `ir_emit_pad` (R17, R20): the envelope, not the carrier (R4 (a)). -/
def irEmitPad (s : State) : Level := emitLevel s.params s.emit

/-- `wdt_kick` (R20): 1 when `phase = DSP_KICK`, also at a step that `rst` pre-empts (V46). -/
def wdtKick (s : State) : Bool := decide (s.phase = encode .dspKick)

/-- What the block drives on DEVICE_SIGNAL: nothing while the line is an input (R41). -/
def devicePad (s : State) : Option Level :=
  match s.devOe with
  | .output => some (devOutPad s)
  | .input => none

/-- The outputs as the bits of the ports (R20, R45). -/
structure Outputs where
  devOePad : BitVec 1
  devOutPad : BitVec 1
  irEmitPad : BitVec 1
  wdtKick : BitVec 1
deriving DecidableEq, Repr

/-- The outputs at the step that starts in `s`. -/
def outputs (s : State) : Outputs :=
  { devOePad := (devOePad s).code
    devOutPad := (devOutPad s).code
    irEmitPad := (irEmitPad s).code
    wdtKick := if wdtKick s then 1#1 else 0#1 }

end Sys2Proof.Machine
end

