-- ==== Sys2Proof/Machine/Flags.lean ====
section
/-! DEFINITION. The conditions that decide a step. The block has no status flag and no condition code (R22): a branch is
decided by a level read in the same step or by `cnt`, and a step is pre-empted by `rst`. -/

namespace Sys2Proof.Machine

/-- A line reads active: it reads low (R6). -/
abbrev readsActive (l : Line) (s : State) : Prop := readLevel l s = .low

/-- This data pulse is the last: `cnt = 15` (R14, R61, R69). -/
abbrev lastPulse (s : State) : Prop := s.cnt = terminalCount

/-- The liveness timer has run out: `wdt_cnt ≥ WDT_TIMEOUT` (R79). -/
def wdtExpired (s : State) : Bool := decide (s.params.wdtTimeout.val ≤ s.wdtCnt)

/-- The input `rst` of this step: power-on or the liveness timer (R74, R79). It cannot be masked (R77). -/
def rst (s : State) : Bool := s.powerOn || wdtExpired s

end Sys2Proof.Machine
end

