-- ==== Sys2Proof/Machine/Ops.lean ====
section
/-! DEFINITION. The operations on registers and lines that the meanings share: the pin primitives (R29 to R32), the
counter (R14), the successor (R12), the exceptional event `Restart` (R74, R80), and what the end of a step does outside
the block (R79). Nothing returns from a `Restart` (R81), so no return operation stands beside it. -/

namespace Sys2Proof.Machine

/-- `phase <- target`: every operation names its successor (R12). -/
def goto (i : Instr) (s : State) : State := { s with phase := encode i }

/-- The line and value of a `SetLevel`. IR_RECEIVE is never driven (R18), so it has no form. -/
inductive LevelWrite where
  | deviceSignal (v : Drive)
  | irEmit (v : Emitter)
deriving DecidableEq, Repr

/-- `SetLevel(line, v)` (R30): the level register is written whatever the direction. On a line that is an input the pad
does not show it (U1; log 9). -/
def setLevel (w : LevelWrite) (s : State) : State :=
  match w with
  | .deviceSignal v => { s with devDrv := v }
  | .irEmit v => { s with emit := v }

/-- `SetDirection(DEVICE_SIGNAL, d)` (R31): `dev_drv` keeps its value. -/
def setDirection (d : Direction) (s : State) : State := { s with devOe := d }

/-- `cnt <- 0` (R59, R67). -/
def clearCnt (s : State) : State := { s with cnt := 0#4 }

/-- The end of a data pulse (R61, R69): after the last one `cnt` returns to 0 and the loop is left for `done`; after any
other one `cnt` is incremented and the loop goes on at `again`. -/
def countPulse (again done : Instr) (s : State) : State :=
  if lastPulse s then goto done { s with cnt := 0#4 } else goto again { s with cnt := s.cnt + 1#4 }

/-- `WaitLevel(l, w)` (R32), a level poll without memory: `done` at a step at which the line reads `w`, else nothing
changes and the same wait is performed again (log 7). -/
def waitLevel (l : Line) (w : Level) (done : State → State) (s : State) : State :=
  if readLevel l s = w then done s else s

/-- A check of the dispatch loop (R52, R53): to `relay` when the line reads active, else to `other`. -/
def checkLine (l : Line) (relay other : Instr) (s : State) : State :=
  if readsActive l s then goto relay s else goto other s

/-- `Restart` (R74, R80): every register of the block takes its reset value (R25). Nothing is saved and nothing is
recorded (R75). -/
def restart (s : State) : State :=
  { s with
    phase := encode .dspIr
    cnt := 0#4
    devOe := .input
    devDrv := s.params.devDrvReset
    emit := .off }

/-- The liveness timer at the end of the step that started in `s` (R79). -/
def wdtNext (s : State) : Nat :=
  if rst s || wdtKick s then 0 else s.wdtCnt + 1

/-- What the end of the step that started in `s` does around the block, whose registers are now those of `t`: the
liveness timer counts (R79) and the environment presents its next inputs (R9, R10). -/
def tick (s t : State) : State :=
  { t with wdtCnt := wdtNext s, tape := s.tape.tail, stepNo := s.stepNo + 1 }

/-- The sequencer placed at the code `c`, for a step that `rst` does not pre-empt: the code is put into `phase`, this
step's `power_on` is 0, and a timer that has run out starts again (log 12). -/
def placeCode (c : PhaseCode) (s : State) : State :=
  { s with
    phase := c
    tape := { s.sample with powerOn := false } :: s.tape.tail
    wdtCnt := if wdtExpired s then 0 else s.wdtCnt }

end Sys2Proof.Machine
end

