-- ==== Sys2Proof/Machine/Device2Ir.lean ====
section
/-! DEFINITION. The meanings of the seven operations of `device2ir` (42_device2ir.md). -/

namespace Sys2Proof.Machine

/-- `D2I_ON` (R65). -/
def execD2iOn (s : State) : Host.Outcome State Fault Refusal :=
  .next (goto .d2iReset (setLevel (.irEmit .on) s))

/-- `D2I_RESET` (R66). -/
def execD2iReset (s : State) : Host.Outcome State Fault Refusal :=
  .next (waitLevel .deviceSignal .high
    (fun s => goto .d2iStart (setLevel (.irEmit .off) s)) s)

/-- `D2I_START` (R67). -/
def execD2iStart (s : State) : Host.Outcome State Fault Refusal :=
  .next (waitLevel .deviceSignal .low
    (fun s => goto .d2iDataR (clearCnt (setLevel (.irEmit .on) s))) s)

/-- `D2I_DATA_R` (R68). -/
def execD2iDataR (s : State) : Host.Outcome State Fault Refusal :=
  .next (waitLevel .deviceSignal .high
    (fun s => goto .d2iDataF (setLevel (.irEmit .off) s)) s)

/-- `D2I_DATA_F` (R69). -/
def execD2iDataF (s : State) : Host.Outcome State Fault Refusal :=
  .next (waitLevel .deviceSignal .low
    (fun s => countPulse .d2iDataR .d2iStop (setLevel (.irEmit .on) s)) s)

/-- `D2I_STOP` (R70). -/
def execD2iStop (s : State) : Host.Outcome State Fault Refusal :=
  .next (waitLevel .deviceSignal .high
    (fun s => goto .d2iGuard (setLevel (.irEmit .off) s)) s)

/-- `D2I_GUARD` (R71): a level wait like every other, so it completes at once if IR_RECEIVE already reads 1. -/
def execD2iGuard (s : State) : Host.Outcome State Fault Refusal :=
  .next (waitLevel .irReceive .high (fun s => goto .dspKick s) s)

end Sys2Proof.Machine
end

