-- ==== Sys2Proof/Machine/DispatchLoop.lean ====
section
/-! DEFINITION. The meanings of the three operations of the dispatch loop (40_dispatch.md). -/

namespace Sys2Proof.Machine

/-- `DSP_IR` (R52). -/
def execDspIr (s : State) : Host.Outcome State Fault Refusal :=
  .next (checkLine .irReceive .i2dClaim .dspDev s)

/-- `DSP_DEV` (R53). -/
def execDspDev (s : State) : Host.Outcome State Fault Refusal :=
  .next (checkLine .deviceSignal .d2iOn .dspKick s)

/-- `DSP_KICK` (R54): the kick itself is the output `wdt_kick` of this step, which `tick` reads. -/
def execDspKick (s : State) : Host.Outcome State Fault Refusal :=
  .next (goto .dspIr s)

end Sys2Proof.Machine
end

