-- ==== Sys2Proof/Machine/Ir2Device.lean ====
section
/-! DEFINITION. The meanings of the eight operations of `ir2device` (41_ir2device.md). -/

namespace Sys2Proof.Machine

/-- `I2D_CLAIM` (R56): `dev_drv` is not written, so the line is driven with its old value for one step (R90). -/
def execI2dClaim (s : State) : Host.Outcome State Fault Refusal :=
  .next (goto .i2dInit (setDirection .output s))

/-- `I2D_INIT` (R57). -/
def execI2dInit (s : State) : Host.Outcome State Fault Refusal :=
  .next (goto .i2dReset (setLevel (.deviceSignal .deasserted) s))

/-- `I2D_RESET` (R58). -/
def execI2dReset (s : State) : Host.Outcome State Fault Refusal :=
  .next (waitLevel .irReceive .high
    (fun s => goto .i2dStart (setLevel (.deviceSignal .asserted) s)) s)

/-- `I2D_START` (R59). -/
def execI2dStart (s : State) : Host.Outcome State Fault Refusal :=
  .next (waitLevel .irReceive .low
    (fun s => goto .i2dDataR (clearCnt (setLevel (.deviceSignal .deasserted) s))) s)

/-- `I2D_DATA_R` (R60). -/
def execI2dDataR (s : State) : Host.Outcome State Fault Refusal :=
  .next (waitLevel .irReceive .high
    (fun s => goto .i2dDataF (setLevel (.deviceSignal .asserted) s)) s)

/-- `I2D_DATA_F` (R61). -/
def execI2dDataF (s : State) : Host.Outcome State Fault Refusal :=
  .next (waitLevel .irReceive .low
    (fun s => countPulse .i2dDataR .i2dStop (setLevel (.deviceSignal .deasserted) s)) s)

/-- `I2D_STOP` (R62): the direction is not changed at this step (R91). -/
def execI2dStop (s : State) : Host.Outcome State Fault Refusal :=
  .next (waitLevel .irReceive .high
    (fun s => goto .i2dRelease (setLevel (.deviceSignal .asserted) s)) s)

/-- `I2D_RELEASE` (R63): back to the second check of the same pass. -/
def execI2dRelease (s : State) : Host.Outcome State Fault Refusal :=
  .next (goto .dspDev (setDirection .input s))

end Sys2Proof.Machine
end

