-- ==== Sys2Proof/Machine/Dispatch.lean ====
section
/-! DEFINITION. One arm per operation (R42). -/

namespace Sys2Proof.Machine

def exec (i : Instr) (s : State) : Host.Outcome State Fault Refusal :=
  match i with
  | .dspIr => Sys2Proof.Machine.execDspIr s
  | .dspDev => Sys2Proof.Machine.execDspDev s
  | .dspKick => Sys2Proof.Machine.execDspKick s
  | .i2dClaim => Sys2Proof.Machine.execI2dClaim s
  | .i2dInit => Sys2Proof.Machine.execI2dInit s
  | .i2dReset => Sys2Proof.Machine.execI2dReset s
  | .i2dStart => Sys2Proof.Machine.execI2dStart s
  | .i2dDataR => Sys2Proof.Machine.execI2dDataR s
  | .i2dDataF => Sys2Proof.Machine.execI2dDataF s
  | .i2dStop => Sys2Proof.Machine.execI2dStop s
  | .i2dRelease => Sys2Proof.Machine.execI2dRelease s
  | .d2iOn => Sys2Proof.Machine.execD2iOn s
  | .d2iReset => Sys2Proof.Machine.execD2iReset s
  | .d2iStart => Sys2Proof.Machine.execD2iStart s
  | .d2iDataR => Sys2Proof.Machine.execD2iDataR s
  | .d2iDataF => Sys2Proof.Machine.execD2iDataF s
  | .d2iStop => Sys2Proof.Machine.execD2iStop s
  | .d2iGuard => Sys2Proof.Machine.execD2iGuard s

end Sys2Proof.Machine
end

