-- ==== Sys2Proof/Machine/Cycle.lean ====
section
/-! DEFINITION. One cycle of `clk` (R9): `Restart` if `rst` is 1 (R74, R78 (a)), else the operation that `phase` selects
(R42), and then the end of the step outside the block (R79). -/

namespace Sys2Proof.Machine

/-- The operation of this step without `rst`: the one `phase` selects (R42, R51), or the fault of a reserved code
(R47, U7). -/
def perform (s : State) : Host.Outcome State Fault Refusal :=
  match decode s.phase with
  | .ok i => exec i s
  | .error _ => .fault (.reservedPhase s.phase)

/-- The block's part of the step: `rst = 1` wins over everything, a reserved code included (R74, R78 (a), V49). -/
def blockStep (s : State) : Host.Outcome State Fault Refusal :=
  if rst s then .next (restart s) else perform s

/-- The whole step. -/
def cycle (s : State) : Host.Outcome State Fault Refusal :=
  match blockStep s with
  | .next t => .next (tick s t)
  | .fault r => .fault r
  | .refused r => .refused r

end Sys2Proof.Machine
end

