-- ==== Sys2Proof/Machine/Step.lean ====
section
/-! DEFINITION. The step of the machine, and a state in which the next step runs a given opcode-table word. The block
fetches nothing from a memory (R39): `phase` holds the operation, so a word is placed there. -/

namespace Sys2Proof.Machine

/-- One step of the machine (R9). -/
def step (s : State) : Host.Outcome State Fault Refusal := cycle s

/-- `s` with the operation of an opcode-table word selected, and this step not a `Restart` (log 12). -/
def State.withFetchWord (s : State) (nbits w : Nat) : State := placeCode (tableCode nbits w) s

end Sys2Proof.Machine
end

