-- ==== Sys2Proof/Machine/Listing.lean ====
section
/-! DEFINITION. The columns of the operation table (R42) as data, the hardwired program (R49) and the names of R50, and
the mnemonics of trace lines (R48). The meanings do not use this file: it is the second rendering that statements hold
them against. -/

namespace Sys2Proof.Machine

/-- The mnemonic of an operation (R42, R48). -/
def mnemonic : Instr → String
  | .dspIr => "DSP_IR"
  | .dspDev => "DSP_DEV"
  | .dspKick => "DSP_KICK"
  | .i2dClaim => "I2D_CLAIM"
  | .i2dInit => "I2D_INIT"
  | .i2dReset => "I2D_RESET"
  | .i2dStart => "I2D_START"
  | .i2dDataR => "I2D_DATA_R"
  | .i2dDataF => "I2D_DATA_F"
  | .i2dStop => "I2D_STOP"
  | .i2dRelease => "I2D_RELEASE"
  | .d2iOn => "D2I_ON"
  | .d2iReset => "D2I_RESET"
  | .d2iStart => "D2I_START"
  | .d2iDataR => "D2I_DATA_R"
  | .d2iDataF => "D2I_DATA_F"
  | .d2iStop => "D2I_STOP"
  | .d2iGuard => "D2I_GUARD"

/-- The column `class` of R42. -/
inductive OpClass where
  | check
  | unconditional
  | edgeWait
deriving DecidableEq, Repr

def opClass : Instr → OpClass
  | .dspIr | .dspDev => .check
  | .dspKick | .i2dClaim | .i2dInit | .i2dRelease | .d2iOn => .unconditional
  | .i2dReset | .i2dStart | .i2dDataR | .i2dDataF | .i2dStop => .edgeWait
  | .d2iReset | .d2iStart | .d2iDataR | .d2iDataF | .d2iStop | .d2iGuard => .edgeWait

/-- The column `reads` of R42: the line sampled, if any. -/
def opReads : Instr → Option Line
  | .dspIr | .i2dReset | .i2dStart | .i2dDataR | .i2dDataF | .i2dStop | .d2iGuard => some .irReceive
  | .dspDev | .d2iReset | .d2iStart | .d2iDataR | .d2iDataF | .d2iStop => some .deviceSignal
  | .dspKick | .i2dClaim | .i2dInit | .i2dRelease | .d2iOn => none

/-- The column `wants` of R42: the level that lets an edge wait complete. -/
def opWants : Instr → Option Level
  | .i2dReset | .i2dDataR | .i2dStop | .d2iReset | .d2iDataR | .d2iStop | .d2iGuard => some .high
  | .i2dStart | .i2dDataF | .d2iStart | .d2iDataF => some .low
  | .dspIr | .dspDev | .dspKick | .i2dClaim | .i2dInit | .i2dRelease | .d2iOn => none

/-- The column `next` of R42: the successor, given the level read (checks) and whether `cnt` is 15 (data falling edges). -/
def opNext (i : Instr) (read : Level) (last : Bool) : Instr :=
  match i with
  | .dspIr => if read = .low then .i2dClaim else .dspDev
  | .dspDev => if read = .low then .d2iOn else .dspKick
  | .dspKick => .dspIr
  | .i2dClaim => .i2dInit
  | .i2dInit => .i2dReset
  | .i2dReset => .i2dStart
  | .i2dStart => .i2dDataR
  | .i2dDataR => .i2dDataF
  | .i2dDataF => if last then .i2dStop else .i2dDataR
  | .i2dStop => .i2dRelease
  | .i2dRelease => .dspDev
  | .d2iOn => .d2iReset
  | .d2iReset => .d2iStart
  | .d2iStart => .d2iDataR
  | .d2iDataR => .d2iDataF
  | .d2iDataF => if last then .d2iStop else .d2iDataR
  | .d2iStop => .d2iGuard
  | .d2iGuard => .dspKick

/-- The column `writes on completion` of R42, one entry per register other than `phase`. -/
structure Writes where
  devOe : Option Direction := none
  devDrv : Option Drive := none
  emit : Option Emitter := none
  /-- `cnt <- 0`. -/
  cntClear : Bool := false
  /-- `cnt` stepped: incremented, or returned to 0 from 15 (R14). -/
  cntStep : Bool := false
deriving DecidableEq, Repr

def opWrites : Instr → Writes
  | .dspIr | .dspDev | .dspKick | .d2iGuard => {}
  | .i2dClaim => { devOe := some .output }
  | .i2dInit => { devDrv := some .deasserted }
  | .i2dReset | .i2dDataR | .i2dStop => { devDrv := some .asserted }
  | .i2dStart => { devDrv := some .deasserted, cntClear := true }
  | .i2dDataF => { devDrv := some .deasserted, cntStep := true }
  | .i2dRelease => { devOe := some .input }
  | .d2iOn => { emit := some .on }
  | .d2iReset | .d2iDataR | .d2iStop => { emit := some .off }
  | .d2iStart => { emit := some .on, cntClear := true }
  | .d2iDataF => { emit := some .on, cntStep := true }

/-- `ir2device` (R50). -/
def ir2device : List Instr :=
  [.i2dClaim, .i2dInit, .i2dReset, .i2dStart, .i2dDataR, .i2dDataF, .i2dStop, .i2dRelease]

/-- `device2ir` (R50). -/
def device2ir : List Instr :=
  [.d2iOn, .d2iReset, .d2iStart, .d2iDataR, .d2iDataF, .d2iStop, .d2iGuard]

/-- The dispatch loop's own operations (R49). -/
def dispatchLoop : List Instr := [.dspIr, .dspDev, .dspKick]

/-- The hardwired program (R49), in the order of its listing. -/
def hardwiredProgram : List Instr := dispatchLoop ++ ir2device ++ device2ir

end Sys2Proof.Machine
end

