-- ==== Sys2Proof/Machine/Trace.lean ====
section
/-! DEFINITION. The trace line of a step (R48, with the outputs of 95_test_vectors.md on its right). It only observes. -/

namespace Sys2Proof.Machine

/-- One line of a trace: `k MNEMONIC rst ir_rx dev_in | cnt dev_oe dev_drv emit`, then the outputs. An input that the
operation does not read is `none` (the `-` of R48). -/
structure TraceLine where
  k : Nat
  op : Option Instr
  rst : Bool
  irRx : Option Level
  devIn : Option Level
  regs : Regs
  outputs : Outputs
deriving DecidableEq, Repr

/-- The input of a line, if this step reads it: a pre-empted step reads neither. -/
def tracedInput (l : Line) (s : State) : Option Level :=
  match rst s, decode s.phase with
  | false, .ok i => if opReads i = some l then some (readLevel l s) else none
  | _, _ => none

/-- The trace line of the step that starts in `s`. -/
def traceLine (s : State) : TraceLine :=
  { k := s.stepNo
    op := (decode s.phase).toOption
    rst := rst s
    irRx := tracedInput .irReceive s
    devIn := tracedInput .deviceSignal s
    regs := s.regs
    outputs := outputs s }

end Sys2Proof.Machine
end

