-- ==== Sys2Proof/Safety.lean ====
section
/-! DEFINITION. What the claims say of runs: runs of several steps, the invariant of the reachable states (R24), runs
without a restart, and the inputs of one whole exchange (R64, R72). -/

namespace Sys2Proof.Safety

open Sys2Proof.Machine

/-- `n` steps, stopping at the first fault or refusal. -/
def runSteps : Nat → State → Host.Outcome State Fault Refusal
  | 0, s => .next s
  | n + 1, s =>
    match step s with
    | .next t => runSteps n t
    | .fault r => .fault r
    | .refused r => .refused r

/-- A state that some run reaches from the reset state, for some parameters and some inputs (R24: "under any inputs"). -/
def Reachable (s : State) : Prop :=
  ∃ p tape n, runSteps n (State.resetWith p tape) = .next s

/-- No `Restart` at any of the next `n` steps. -/
def restartFree : Nat → State → Bool
  | 0, _ => true
  | n + 1, s =>
    !rst s && match step s with
      | .next t => restartFree n t
      | .fault _ => true
      | .refused _ => true

/-- No `Restart` and no kick at any of the next `n` steps. -/
def quiet : Nat → State → Bool
  | 0, _ => true
  | n + 1, s =>
    !rst s && !wdtKick s && match step s with
      | .next t => quiet n t
      | .fault _ => true
      | .refused _ => true

/-- The codes of a list of operations. -/
def codes (l : List Instr) : List PhaseCode := l.map encode

/-- R24 (b): the phases in which DEVICE_SIGNAL is an output. -/
def claimedOps : List Instr :=
  [.i2dInit, .i2dReset, .i2dStart, .i2dDataR, .i2dDataF, .i2dStop, .i2dRelease]

/-- R24 (c): the phases in which the emitter is on. -/
def emittingOps : List Instr := [.d2iReset, .d2iDataR, .d2iStop]

/-- R24 (d): the phases of `ir2device` in which the drive is DEASSERTED. -/
def driveLowOps : List Instr := [.i2dReset, .i2dDataR, .i2dStop]

/-- R24 (d): the phases of `ir2device` in which the drive is ASSERTED. -/
def driveHighOps : List Instr := [.i2dStart, .i2dDataF, .i2dRelease]

/-- R24 (e): the four data phases. -/
def dataOps : List Instr := [.i2dDataR, .i2dDataF, .d2iDataR, .d2iDataF]

/-- The phases at which `SetLevel` is applied to DEVICE_SIGNAL (R28). -/
def deviceWriteOps : List Instr :=
  [.i2dInit, .i2dReset, .i2dStart, .i2dDataR, .i2dDataF, .i2dStop]

/-- R24 (a). -/
abbrev LegalPhase (r : Regs) : Prop := WellFormed.legalPhase r.phase = true

/-- R24 (b). -/
abbrev ClaimedExactly (r : Regs) : Prop := r.devOe = .output ↔ r.phase ∈ codes claimedOps

/-- R24 (c). -/
abbrev EmittingExactly (r : Regs) : Prop := r.emit = .on ↔ r.phase ∈ codes emittingOps

/-- R24 (d). -/
abbrev DriveByPhase (r : Regs) : Prop :=
  (r.phase ∈ codes driveLowOps → r.devDrv = .deasserted) ∧ (r.phase ∈ codes driveHighOps → r.devDrv = .asserted)

/-- R24 (e). -/
abbrev CountIdle (r : Regs) : Prop := r.phase ∉ codes dataOps → r.cnt = 0#4

/-- R24 (f): mutual exclusion. -/
abbrev NeverBoth (r : Regs) : Prop := ¬(r.devOe = .output ∧ r.emit = .on)

/-- R24 (g): where `SetLevel` is applied to DEVICE_SIGNAL, the line is an output. -/
abbrev DriveOnlyWhenOut (r : Regs) : Prop := r.phase ∈ codes deviceWriteOps → r.devOe = .output

/-- The invariant of the reachable states, R24 (a) to (g). -/
abbrev RelayInv (r : Regs) : Prop :=
  LegalPhase r ∧ ClaimedExactly r ∧ EmittingExactly r ∧ DriveByPhase r ∧ CountIdle r ∧ NeverBoth r ∧ DriveOnlyWhenOut r

/-- A start edge is seen at this step (R59, R67): the operation waits for it and its line reads low. -/
abbrev StartEdgeSeen (s : State) : Prop :=
  (s.phase = encode .i2dStart ∧ s.irRx = .low) ∨ (s.phase = encode .d2iStart ∧ s.devIn = .low)

/-- The falling edge of a data pulse is seen at this step (R61, R69). -/
abbrev PulseEdgeSeen (s : State) : Prop :=
  (s.phase = encode .i2dDataF ∧ s.irRx = .low) ∨ (s.phase = encode .d2iDataF ∧ s.devIn = .low)

/-- A state from which no run faults: its `phase` is legal. -/
abbrev SafeState (s : State) : Prop := WellFormed.legalPhase s.phase = true

/-- The registers after an outcome, if it is a next state. -/
def nextRegs (o : Host.Outcome State Fault Refusal) : Option Regs :=
  match o with
  | .next t => some t.regs
  | .fault _ => none
  | .refused _ => none

/-- What one edge wait sees on its line: samples at the other level, as many as there are, then one at the wanted level. -/
structure WaitInput where
  stalls : List Sample
  last : Sample
deriving DecidableEq, Repr

/-- The samples of the wait, in order. -/
def WaitInput.samples (w : WaitInput) : List Sample := w.stalls ++ [w.last]

/-- The samples of several waits one after another. -/
def samplesOf (ws : List WaitInput) : List Sample := ws.flatMap WaitInput.samples

/-- The waits see alternating wanted levels on `line`, the first of them `w`. -/
def alternating (line : Sample → Level) : Level → List WaitInput → Bool
  | _, [] => true
  | w, x :: xs =>
    x.stalls.all (fun a => decide (line a ≠ w)) && decide (line x.last = w) && alternating line w.flip xs

/-- The inputs of one exchange on `line` (90_conflicts.md C1): `N_WAITS` waits of alternating polarity, starting with
rising, each as long as it likes. -/
def exchangeOn (line : Sample → Level) (ws : List WaitInput) : Prop :=
  ws.length = Config.nWaits ∧ alternating line .high ws = true

/-- How often the level changes along a list. -/
def changes : List Level → Nat
  | a :: b :: l => (if a = b then 0 else 1) + changes (b :: l)
  | _ => 0

/-- No sample of the list cycles power. -/
def noPowerCycle (l : List Sample) : Bool := l.all (fun a => !a.powerOn)

/-- The part of a loop pass an operation belongs to, in the order of R55: first check, `ir2device`, second check,
`device2ir`, kick. -/
def passRank : Instr → Nat
  | .dspIr => 0
  | .i2dClaim | .i2dInit | .i2dReset | .i2dStart | .i2dDataR | .i2dDataF | .i2dStop | .i2dRelease => 1
  | .dspDev => 2
  | .d2iOn | .d2iReset | .d2iStart | .d2iDataR | .d2iDataF | .d2iStop | .d2iGuard => 3
  | .dspKick => 4

/-- The registers that the operation table (R42) gives for one performance of `i` from `s`: an edge wait whose level is
not there changes nothing; otherwise the row's writes and its successor. -/
def tableRegs (i : Instr) (s : State) : Regs :=
  let read : Level := match opReads i with
    | some l => readLevel l s
    | none => .low
  let w := opWrites i
  if opClass i = .edgeWait ∧ opWants i ≠ some read then s.regs
  else
    { phase := encode (opNext i read (decide (s.cnt = 15#4)))
      cnt :=
        if w.cntClear then 0#4
        else if w.cntStep then (if s.cnt = 15#4 then 0#4 else s.cnt + 1#4)
        else s.cnt
      devOe := w.devOe.getD s.devOe
      devDrv := w.devDrv.getD s.devDrv
      emit := w.emit.getD s.emit }

end Sys2Proof.Safety
end

