-- ==== Sys2Proof/Certificates/Slice0/Obligations.lean ====
section
/-! DEFINITION. The statements for the provers. Phase codes are written out from the table of R42 where a statement gives an
operation's result. An equation `exec i s = .next { s with … }` says the operation's whole effect and its frame: every
field not named keeps its value. -/

open Sys2Proof Sys2Proof.Machine Sys2Proof.Safety

/-! ## The operations -/

/-- R52, R53: each check branches on the level of its one line and writes `phase` only. -/
def Obligations.ChecksBranchOnTheLevelOfTheirLine : Prop :=
  ∀ s : State,
    (readLevel .irReceive s = .low → exec .dspIr s = .next { s with phase := 0x08#5 }) ∧
    (readLevel .irReceive s = .high → exec .dspIr s = .next { s with phase := 0x01#5 }) ∧
    (readLevel .deviceSignal s = .low → exec .dspDev s = .next { s with phase := 0x10#5 }) ∧
    (readLevel .deviceSignal s = .high → exec .dspDev s = .next { s with phase := 0x02#5 })

/-- R54: `DSP_KICK` returns to the first check, and it is the only phase with `wdt_kick = 1`. -/
def Obligations.KickReturnsToTheFirstCheck : Prop :=
  ∀ s : State,
    exec .dspKick s = .next { s with phase := 0x00#5 } ∧ (wdtKick s = true ↔ s.phase = 0x02#5)

/-- R56, R57, R63: the three operations of `ir2device` that read no line write one register each. -/
def Obligations.ClaimInitReleaseWriteOneRegisterEach : Prop :=
  ∀ s : State,
    exec .i2dClaim s = .next { s with devOe := .output, phase := 0x09#5 } ∧
    exec .i2dInit s = .next { s with devDrv := .deasserted, phase := 0x0A#5 } ∧
    exec .i2dRelease s = .next { s with devOe := .input, phase := 0x01#5 }

/-- R58, R60, R62: the rising waits of `ir2device` assert DEVICE_SIGNAL when IR_RECEIVE reads 1, and else stay. -/
def Obligations.RisingWaitsAssertTheDeviceLine : Prop :=
  ∀ s : State,
    (readLevel .irReceive s = .high →
      exec .i2dReset s = .next { s with devDrv := .asserted, phase := 0x0B#5 } ∧
      exec .i2dDataR s = .next { s with devDrv := .asserted, phase := 0x0D#5 } ∧
      exec .i2dStop s = .next { s with devDrv := .asserted, phase := 0x0F#5 }) ∧
    (readLevel .irReceive s = .low →
      exec .i2dReset s = .next s ∧ exec .i2dDataR s = .next s ∧ exec .i2dStop s = .next s)

/-- R59: the start edge of `ir2device` deasserts and clears the counter, whatever it held (V13). -/
def Obligations.StartEdgeDeassertsAndClearsTheCount : Prop :=
  ∀ s : State,
    (readLevel .irReceive s = .low →
      exec .i2dStart s = .next { s with devDrv := .deasserted, cnt := 0#4, phase := 0x0C#5 }) ∧
    (readLevel .irReceive s = .high → exec .i2dStart s = .next s)

/-- R61: the falling edge of a data pulse of `ir2device` deasserts and counts the pulse, without overflow. -/
def Obligations.DataFallingEdgeCountsTheReceivedPulse : Prop :=
  ∀ s : State,
    (readLevel .irReceive s = .low →
      (s.cnt = 15#4 → exec .i2dDataF s = .next { s with devDrv := .deasserted, cnt := 0#4, phase := 0x0E#5 }) ∧
      (s.cnt ≠ 15#4 → ∃ c : Count, c.toNat = s.cnt.toNat + 1 ∧
        exec .i2dDataF s = .next { s with devDrv := .deasserted, cnt := c, phase := 0x0C#5 })) ∧
    (readLevel .irReceive s = .high → exec .i2dDataF s = .next s)

/-- R65: `D2I_ON` turns the emitter on and writes no direction. -/
def Obligations.EmitterGoesOnAtTheStart : Prop :=
  ∀ s : State, exec .d2iOn s = .next { s with emit := .on, phase := 0x12#5 }

/-- R66, R68, R70: the rising waits of `device2ir` turn the emitter off when DEVICE_SIGNAL reads 1, and else stay. -/
def Obligations.RisingWaitsTurnTheEmitterOff : Prop :=
  ∀ s : State,
    (readLevel .deviceSignal s = .high →
      exec .d2iReset s = .next { s with emit := .off, phase := 0x13#5 } ∧
      exec .d2iDataR s = .next { s with emit := .off, phase := 0x15#5 } ∧
      exec .d2iStop s = .next { s with emit := .off, phase := 0x17#5 }) ∧
    (readLevel .deviceSignal s = .low →
      exec .d2iReset s = .next s ∧ exec .d2iDataR s = .next s ∧ exec .d2iStop s = .next s)

/-- R67: the start edge of `device2ir` turns the emitter on and clears the counter. -/
def Obligations.StartEdgeTurnsTheEmitterOnAndClearsTheCount : Prop :=
  ∀ s : State,
    (readLevel .deviceSignal s = .low →
      exec .d2iStart s = .next { s with emit := .on, cnt := 0#4, phase := 0x14#5 }) ∧
    (readLevel .deviceSignal s = .high → exec .d2iStart s = .next s)

/-- R69: the falling edge of a data pulse of `device2ir` turns the emitter on and counts the pulse, without overflow. -/
def Obligations.DataFallingEdgeCountsTheSentPulse : Prop :=
  ∀ s : State,
    (readLevel .deviceSignal s = .low →
      (s.cnt = 15#4 → exec .d2iDataF s = .next { s with emit := .on, cnt := 0#4, phase := 0x16#5 }) ∧
      (s.cnt ≠ 15#4 → ∃ c : Count, c.toNat = s.cnt.toNat + 1 ∧
        exec .d2iDataF s = .next { s with emit := .on, cnt := c, phase := 0x14#5 })) ∧
    (readLevel .deviceSignal s = .high → exec .d2iDataF s = .next s)

/-- The guard waits for IR_RECEIVE to read 1, writes `phase` only and goes to the kick: the pseudocode of R71. That it
completes also where the line already reads 1 at its first step is the spec's decision D7 (R71 (b); log 7, a DESIGN
CHOICE), so the statement is derived. -/
def Obligations.GuardWaitsForTheReceiver : Prop :=
  ∀ s : State,
    (readLevel .irReceive s = .high → exec .d2iGuard s = .next { s with phase := 0x02#5 }) ∧
    (readLevel .irReceive s = .low → exec .d2iGuard s = .next s)

/-! ## Restart, and the step -/

/-- R80: a `Restart`, from any state (a reserved code too), writes the reset values of the instance to all five registers in
one step; DEVICE_SIGNAL is given up, the emitter is off, control is at `DSP_IR`. The values themselves of `cnt` and
`dev_drv` are the spec's decision D10 (log 6) and are not claimed here. -/
def Obligations.RestartWritesEveryRegisterInOneStep : Prop :=
  ∀ s : State, rst s = true →
    ∃ t, step s = .next t ∧ t.regs = (State.resetWith s.params []).regs ∧
      t.phase = 0x00#5 ∧ t.devOe = .input ∧ t.emit = .off ∧ t.params = s.params

/-- R75: nothing is recorded: after a `Restart` the registers of the block and its outputs are the same whatever came
before, and whichever of the two causes raised it. -/
def Obligations.RestartLeavesNoTraceOfItsCause : Prop :=
  ∀ s s' t t' : State, s.params = s'.params → rst s = true → rst s' = true →
    step s = .next t → step s' = .next t' → t.regs = t'.regs ∧ outputs t = outputs t'

/-- A step with `rst = 0` is the operation that `phase` selects, and then the end of the step: the liveness timer counts
or is cleared by the kick, the next inputs are presented, the step number advances. The tape and the step number are the
model's (log 2, log 15). -/
def Obligations.StepPerformsTheOperationThatPhaseSelects : Prop :=
  ∀ (s t : State) (i : Instr), decode s.phase = .ok i → rst s = false → exec i s = .next t →
    step s = .next { t with
      wdtCnt := if s.phase = 0x02#5 then 0 else s.wdtCnt + 1
      tape := s.tape.tail
      stepNo := s.stepNo + 1 }

/-- The only stop is a step without `rst` from one of the 14 reserved codes; it is a fault that names the code. The spec's
decision D14 and U7 (log 1). -/
def Obligations.OnlyReservedCodesStopTheMachine : Prop :=
  ∀ s : State,
    (step s = .fault (.reservedPhase s.phase) ↔ rst s = false ∧ WellFormed.legalPhase s.phase = false) ∧
    (∀ r, step s = .fault r → r = .reservedPhase s.phase) ∧
    (∀ r, step s ≠ .refused r)

/-- From every legal state, under all inputs, there is a next state, and it is legal (L3, R12). -/
def Obligations.EveryLegalStateHasALegalSuccessor : Prop :=
  ∀ s : State, SafeState s → ∃ t, step s = .next t ∧ SafeState t

/-- The next step from a state on which a table word has been placed runs that word's operation, on the inputs that were
presented. This is the model's way to start at an operation (log 12). -/
def Obligations.PlacedWordIsTheNextOperationRun : Prop :=
  ∀ (s t : State) (nbits w : Nat) (i : Instr), 5 ≤ nbits → decodeTableWord nbits w = some i →
    exec i (s.withFetchWord nbits w) = .next t →
      (∃ u, step (s.withFetchWord nbits w) = .next u ∧ u.regs = t.regs) ∧
      (s.withFetchWord nbits w).irRx = s.irRx ∧ (s.withFetchWord nbits w).devIn = s.devIn

/-! ## Encoding -/

/-- A table word decodes to an operation exactly when its five low bits are that operation's code, and to none exactly
when they are one of the reserved codes. The codes are the spec's decision D3 (log 17). -/
def Obligations.TableWordsDecodeExactlyToTheirCodes : Prop :=
  ∀ nbits w : Nat, 5 ≤ nbits →
    (∀ i, decodeTableWord nbits w = some i ↔ BitVec.ofNat 5 w = encode i) ∧
    (decodeTableWord nbits w = none ↔ WellFormed.legalPhase (BitVec.ofNat 5 w) = false)

/-- Words written out from R42, one or two of each family, and two reserved ones (R47). -/
def Obligations.WordsOfEachFamilyDecode : Prop :=
  decodeTableWord 8 0b00000 = some .dspIr ∧ decodeTableWord 8 0b00010 = some .dspKick ∧
  decodeTableWord 8 0b01000 = some .i2dClaim ∧ decodeTableWord 8 0b01101 = some .i2dDataF ∧
  decodeTableWord 8 0b10010 = some .d2iReset ∧ decodeTableWord 8 0b10111 = some .d2iGuard ∧
  decodeTableWord 8 0b10001 = none ∧ decodeTableWord 8 0b11011 = none

/-- The codes of lines, directions and register values (R44, R45; the spec's decision D4, log 18), each read back. -/
def Obligations.LineAndValueCodesReadBack : Prop :=
  (∀ c : BitVec 2, (∃ l : Line, Line.ofCode c = some l ∧ l.code = c) ↔ WellFormed.legalLineCode c = true) ∧
  Line.irEmit.code = 0#2 ∧ Line.irReceive.code = 1#2 ∧ Line.deviceSignal.code = 2#2 ∧
  (∀ b : BitVec 1, (Direction.ofCode b).code = b ∧ (Drive.ofCode b).code = b ∧ (Emitter.ofCode b).code = b ∧
    (Level.ofCode b).code = b) ∧
  Direction.output.code = 1#1 ∧ Drive.asserted.code = 1#1 ∧ Emitter.on.code = 1#1 ∧ Level.high.code = 1#1

/-! ## Reset and the reachable states -/

/-- The reset state and its outputs (R25, R85) with the default parameters. `cnt`, `dev_drv`, `emit` and the pad levels are
the spec's decisions D8 to D10, not the source's (log 5, log 6). The last clause, the timer's count 0, is its model of the
timer (R79), decision D12 (log 3). -/
def Obligations.ResetStateHoldsTheSpecsResetValues : Prop :=
  State.reset.regs = { phase := 0x00#5, cnt := 0#4, devOe := .input, devDrv := .deasserted, emit := .off } ∧
  outputs State.reset = { devOePad := 0#1, devOutPad := 0#1, irEmitPad := 1#1, wdtKick := 0#1 } ∧
  State.reset.wdtCnt = 0

/-- R24 holds after every `Restart`, for every parameter value, and at the reset state. -/
def Obligations.InvariantHoldsAfterRestart : Prop :=
  RelayInv State.reset.regs ∧ (∀ p tape, RelayInv (State.resetWith p tape).regs) ∧
  ∀ s t : State, rst s = true → step s = .next t → RelayInv t.regs

/-- R24 (a) to (g) is kept by every step, from every state that satisfies it, under all inputs. -/
def Obligations.StepKeepsTheInvariantOfTheReachableStates : Prop :=
  ∀ s t : State, RelayInv s.regs → step s = .next t → RelayInv t.regs

/-- From reset, for all parameters and all inputs, the block runs for ever within the invariant: no number of steps
faults. -/
def Obligations.TheBlockRunsForeverWithinTheInvariant : Prop :=
  ∀ (p : Params) (tape : List Sample) (n : Nat),
    ∃ t, runSteps n (State.resetWith p tape) = .next t ∧ RelayInv t.regs

/-- The reachable register values are exactly those that satisfy R24, with `DEV_DRV_RESET = 0`; with `DEV_DRV_RESET = 1`
exactly those among them whose drive is deasserted only where R24 (d) says so (95_test_vectors.md L1 counts 120 and 78 of
them). The invariant is not only kept: nothing in it is unreachable. -/
def Obligations.InvariantIsExactlyReachability : Prop :=
  ∀ r : Regs,
    (RelayInv r ↔
      ∃ (p : Params) (tape : List Sample) (n : Nat) (t : State),
        p.devDrvReset = .deasserted ∧ runSteps n (State.resetWith p tape) = .next t ∧ t.regs = r) ∧
    (RelayInv r ∧ (r.devDrv = .deasserted → r.phase ∈ codes driveLowOps) ↔
      ∃ (p : Params) (tape : List Sample) (n : Nat) (t : State),
        p.devDrvReset = .asserted ∧ runSteps n (State.resetWith p tape) = .next t ∧ t.regs = r)

/-! ## Registers, lines and outputs over one step -/

/-- Every operation does what its row of the operation table says, and nothing else. The meanings follow the operation
rules; `tableRegs` follows the table of R42. -/
def Obligations.OperationsFollowTheOperationTable : Prop :=
  ∀ (i : Instr) (s : State), exec i s = .next { s with
    phase := (tableRegs i s).phase
    cnt := (tableRegs i s).cnt
    devOe := (tableRegs i s).devOe
    devDrv := (tableRegs i s).devDrv
    emit := (tableRegs i s).emit }

/-- R28: which operation reaches which line. What an operation does depends on no line but the one listed for it, and does
depend on that one; `SetLevel` and `SetDirection` reach a line only in the listed operations. The last clause, that in every
state of the invariant DEVICE_SIGNAL is read as an input and driven as an output, is what R28 derives from R24 (b) and (g),
so the statement is derived. -/
def Obligations.EachLineIsReachedOnlyByItsListedOperations : Prop :=
  let irReaders : List Instr := [.dspIr, .i2dReset, .i2dStart, .i2dDataR, .i2dDataF, .i2dStop, .d2iGuard]
  let deviceReaders : List Instr := [.dspDev, .d2iReset, .d2iStart, .d2iDataR, .d2iDataF, .d2iStop]
  let emitWriters : List Instr := [.d2iOn, .d2iReset, .d2iStart, .d2iDataR, .d2iDataF, .d2iStop]
  let deviceWriters : List Instr := [.i2dInit, .i2dReset, .i2dStart, .i2dDataR, .i2dDataF, .i2dStop]
  ∀ i : Instr,
    (∀ s t : State, s.regs = t.regs → (i ∈ irReaders → s.irRx = t.irRx) → (i ∈ deviceReaders → s.devIn = t.devIn) →
      nextRegs (exec i s) = nextRegs (exec i t)) ∧
    (i ∈ irReaders → ∃ s t : State, s.regs = t.regs ∧ s.devIn = t.devIn ∧ nextRegs (exec i s) ≠ nextRegs (exec i t)) ∧
    (i ∈ deviceReaders → ∃ s t : State, s.regs = t.regs ∧ s.irRx = t.irRx ∧ nextRegs (exec i s) ≠ nextRegs (exec i t)) ∧
    (i ∈ emitWriters ↔ ∃ s t : State, exec i s = .next t ∧ t.emit ≠ s.emit) ∧
    (i ∈ deviceWriters ↔ ∃ s t : State, exec i s = .next t ∧ t.devDrv ≠ s.devDrv) ∧
    (i = .i2dClaim ↔ ∃ s t : State, exec i s = .next t ∧ t.devOe = .output ∧ s.devOe = .input) ∧
    (i = .i2dRelease ↔ ∃ s t : State, exec i s = .next t ∧ t.devOe = .input ∧ s.devOe = .output) ∧
    (∀ s : State, RelayInv s.regs → s.phase = encode i →
      (i ∈ deviceReaders → s.devOe = .input) ∧ (i ∈ deviceWriters → s.devOe = .output))

/-- The frame of every operation: `cnt` changes only in the four operations of R11's column, and the timer, the parameters,
the tape and the step number never. -/
def Obligations.OperationsLeaveTheRestUnchanged : Prop :=
  ∀ (i : Instr) (s t : State), exec i s = .next t →
    (t.cnt ≠ s.cnt → i ∈ [Instr.i2dStart, .i2dDataF, .d2iStart, .d2iDataF]) ∧
    (t.devOe ≠ s.devOe → i ∈ [Instr.i2dClaim, .i2dRelease]) ∧
    (t.devDrv ≠ s.devDrv → i ∈ [Instr.i2dInit, .i2dReset, .i2dStart, .i2dDataR, .i2dDataF, .i2dStop]) ∧
    (t.emit ≠ s.emit → i ∈ [Instr.d2iOn, .d2iReset, .d2iStart, .d2iDataR, .d2iDataF, .d2iStop]) ∧
    t.wdtCnt = s.wdtCnt ∧ t.params = s.params ∧ t.tape = s.tape ∧ t.stepNo = s.stepNo

/-- R13: how each kind of operation advances `phase`, over one step with `rst = 0`. -/
def Obligations.EachClassAdvancesPhaseItsWay : Prop :=
  ∀ (s : State) (i : Instr), s.phase = encode i → rst s = false →
    ∃ t, step s = .next t ∧
      (opClass i = .unconditional → t.phase = encode (opNext i .low false) ∧ t.phase ≠ s.phase) ∧
      (opClass i = .check → ∃ l, opReads i = some l ∧ t.phase = encode (opNext i (readLevel l s) false) ∧
        t.phase ≠ s.phase) ∧
      (opClass i = .edgeWait → ∃ l w, opReads i = some l ∧ opWants i = some w ∧
        (readLevel l s = w → t.phase = encode (opNext i w (decide (s.cnt = 15#4))) ∧ t.phase ≠ s.phase) ∧
        (readLevel l s ≠ w → t.regs = s.regs))

/-- The three ways of writing the counter, and no other (R14): a start edge clears it; the falling edge of a data pulse
increments it, without overflow, or clears it at 15; every other step keeps it. Width and direction of the counter are
the spec's decision D13 (log 17). -/
def Obligations.CountIsWrittenInThreeWaysOnly : Prop :=
  ∀ s t : State, rst s = false → step s = .next t →
    (StartEdgeSeen s → t.cnt = 0#4) ∧
    (PulseEdgeSeen s → s.cnt ≠ 15#4 → t.cnt.toNat = s.cnt.toNat + 1) ∧
    (PulseEdgeSeen s → s.cnt = 15#4 → t.cnt = 0#4) ∧
    (¬StartEdgeSeen s → ¬PulseEdgeSeen s → t.cnt = s.cnt)

/-- The level mux (R21): where an edge wait of `ir2device` completes, `dev_drv` is the level just read on IR_RECEIVE, and
the pad shows that level, or its inverse, by `DEV_ASSERT_LEVEL`; where one of `device2ir` completes, `emit` is the inverse
of the level just read on DEVICE_SIGNAL; otherwise neither sink follows a line. -/
def Obligations.TheLevelMuxRoutesTheLevelJustRead : Prop :=
  ∀ s t : State, rst s = false → step s = .next t →
    (s.phase ∈ codes [.i2dReset, .i2dStart, .i2dDataR, .i2dDataF, .i2dStop] → t.phase ≠ s.phase →
      t.devDrv = Drive.ofLevel s.irRx ∧
      devOutPad t = if s.params.devAssertLevel = .high then s.irRx else s.irRx.flip) ∧
    (s.phase ∈ codes [.d2iReset, .d2iStart, .d2iDataR, .d2iDataF, .d2iStop] → t.phase ≠ s.phase →
      t.emit = Emitter.ofLevel s.devIn) ∧
    (t.phase = s.phase → t.regs = s.regs) ∧
    (modeField s.phase = 0b00#2 → t.devDrv = s.devDrv ∧ t.emit = s.emit)

/-- Mutual exclusion as a law of the step (95_test_vectors.md E4): while one relay runs, nothing of the other's output is
written; and the dispatch loop writes `phase` only. -/
def Obligations.OneRelayNeverTouchesTheOthersOutput : Prop :=
  ∀ s t : State, rst s = false → step s = .next t →
    (modeField s.phase = 0b01#2 → t.emit = s.emit) ∧
    (modeField s.phase = 0b10#2 → t.devOe = s.devOe ∧ t.devDrv = s.devDrv) ∧
    (modeField s.phase = 0b00#2 → t.regs = { s.regs with phase := t.phase })

/-- While the block drives DEVICE_SIGNAL, the level on it (contention, read-back) changes no register (R41, decision D17,
log 10). -/
def Obligations.TheLevelOfADrivenLineIsNeverRead : Prop :=
  ∀ s t : State, RelayInv s.regs → s.devOe = .output → s.regs = t.regs → s.params = t.params → rst s = rst t →
    s.irRx = t.irRx → nextRegs (step s) = nextRegs (step t)

/-- The block sees the outside only through its inputs (R23 (a), R97 (a)): the next registers are determined by the
registers, the parameters, `rst`, `ir_rx` and `dev_in`. Neither the timer's count nor anything else reaches them. -/
def Obligations.TheBlockSeesTheOutsideOnlyThroughItsInputs : Prop :=
  ∀ s t : State, s.regs = t.regs → s.params = t.params → rst s = rst t → s.irRx = t.irRx → s.devIn = t.devIn →
    nextRegs (step s) = nextRegs (step t)

/-- The four outputs are functions of the registers and the level parameters alone (R16, R17, R20): what each pad is, that
the port record holds their bits (R45) and the kick's, and what the block puts on DEVICE_SIGNAL. Moore outputs, the two
level parameters and the bit codes are the spec's decisions D1, D8, D9 and D4 (log 8, log 5, log 18). -/
def Obligations.OutputsAreFunctionsOfTheRegisters : Prop :=
  ∀ s : State,
    devOePad s = s.devOe ∧
    (s.devDrv = .asserted → devOutPad s = s.params.devAssertLevel) ∧
    (s.devDrv = .deasserted → devOutPad s ≠ s.params.devAssertLevel) ∧
    (s.emit = .on → irEmitPad s = s.params.emitOnLevel) ∧
    (s.emit = .off → irEmitPad s ≠ s.params.emitOnLevel) ∧
    (s.devOe = .input → devicePad s = none) ∧
    (s.devOe = .output → devicePad s = some (devOutPad s)) ∧
    (wdtKick s = true ↔ s.phase = 0x02#5) ∧
    outputs s =
      { devOePad := (devOePad s).code
        devOutPad := (devOutPad s).code
        irEmitPad := (irEmitPad s).code
        wdtKick := if s.phase = 0x02#5 then 1#1 else 0#1 }

/-- R31: `SetDirection` on DEVICE_SIGNAL takes effect at once; OUT shows whatever `dev_drv` holds; IN stops driving and
leaves `dev_drv` unchanged. -/
def Obligations.SetDirectionShowsOrHidesTheStoredDrive : Prop :=
  ∀ s : State,
    setDirection .output s = { s with devOe := .output } ∧
    devicePad (setDirection .output s) = some (driveLevel s.params s.devDrv) ∧
    setDirection .input s = { s with devOe := .input } ∧
    devicePad (setDirection .input s) = none ∧
    (setDirection .input s).devDrv = s.devDrv

/-- `SetLevel` writes the level register of its line and nothing else, and where the block applies it the invariant makes
the line an output (R30). That it writes `dev_drv` also while the line is an input, and that the pad then shows nothing,
is not R30, which leaves that case undefined or a no-op: it is the model's choice (log 9), which follows U1, R16 and R20. -/
def Obligations.SetLevelWritesTheLevelRegisterOfItsLine : Prop :=
  ∀ s : State,
    (∀ v, setLevel (.deviceSignal v) s = { s with devDrv := v }) ∧
    (∀ v, setLevel (.irEmit v) s = { s with emit := v }) ∧
    (s.devOe = .input → ∀ v, devicePad (setLevel (.deviceSignal v) s) = none) ∧
    (RelayInv s.regs → s.phase ∈ codes deviceWriteOps → s.devOe = .output)

/-- R18: two directions are hardwired, and no step changes them. -/
def Obligations.EmitterIsAlwaysOutAndReceiverAlwaysIn : Prop :=
  ∀ s t : State, step s = .next t →
    direction .irEmit s = .output ∧ direction .irEmit t = .output ∧
    direction .irReceive s = .input ∧ direction .irReceive t = .input

/-! ## Two and more steps -/

/-- R90, R56 (a): after the claim the line is driven for one step with the level `dev_drv` held before, and then with the
deasserted level. One operation a step is the spec's decision D6 (log 8). -/
def Obligations.TheClaimExposesTheStaleDriveForOneStep : Prop :=
  ∀ s : State, s.phase = encode .i2dClaim → restartFree 2 s = true →
    ∃ t u, step s = .next t ∧ step t = .next u ∧
      devicePad t = some (driveLevel s.params s.devDrv) ∧ devicePad u = some (driveLevel s.params .deasserted)

/-- R91, R62 (a): the asserted level that the stop edge writes is on the line for exactly one step, and then the line is
given up. One operation a step is the spec's decision D6 (log 8). -/
def Obligations.TheFinalAssertLastsExactlyOneStep : Prop :=
  ∀ s : State, s.phase = encode .i2dStop → s.devOe = .output → s.irRx = .high → restartFree 2 s = true →
    ∃ t u, step s = .next t ∧ step t = .next u ∧
      devicePad t = some (driveLevel s.params .asserted) ∧ devicePad u = none ∧ u.devDrv = .asserted

/-- An idle pass is three steps and leaves every register as it was, with one kick at its last step (R54 (c)). One operation
a step is the spec's decision D6 (log 8); that the timer's count is then 0 is its model of the timer (R79), decision D12
(log 3). -/
def Obligations.AnIdlePassTakesThreeSteps : Prop :=
  ∀ (s : State) (a b : Sample) (rest : List Sample),
    s.phase = encode .dspIr → s.tape = a :: b :: rest → a.irRx = .high → b.devIn = .high → restartFree 3 s = true →
      quiet 2 s = true ∧ (∃ u, runSteps 2 s = .next u ∧ wdtKick u = true) ∧
      ∃ t, runSteps 3 s = .next t ∧ t.regs = s.regs ∧ t.wdtCnt = 0

/-- A pass goes through its parts in the order of R55: first check, `ir2device`, second check, `device2ir`, kick; a relay is
entered only at its first operation and only from its check. So no pass runs `device2ir` before `ir2device`, or either
relay twice. -/
def Obligations.APassVisitsItsPartsInOrder : Prop :=
  ∀ (s t : State) (i j : Instr), s.phase = encode i → t.phase = encode j → rst s = false → step s = .next t →
    (i = .dspKick → j = .dspIr) ∧
    (i ≠ .dspKick → passRank i ≤ passRank j) ∧
    (j = .dspIr → i = .dspKick) ∧
    (j = .i2dClaim → i = .dspIr) ∧
    (j = .dspDev → i = .dspIr ∨ i = .i2dRelease) ∧
    (j = .d2iOn → i = .dspDev) ∧
    (j = .dspKick → i = .dspDev ∨ i = .d2iGuard) ∧
    (passRank i < passRank j → j = .i2dClaim ∨ j = .dspDev ∨ j = .d2iOn ∨ j = .dspKick)

/-- No wait has a timeout (R87): while the level does not come, for however many steps, registers and outputs are held. -/
def Obligations.AStalledWaitHoldsRegistersAndOutputs : Prop :=
  ∀ (n : Nat) (s : State) (i : Instr) (l : Line) (w : Level),
    s.phase = encode i → opReads i = some l → opWants i = some w → n ≤ s.tape.length →
    (∀ a ∈ s.tape.take n, (l = .irReceive → a.irRx ≠ w) ∧ (l = .deviceSignal → a.devIn ≠ w)) →
    restartFree n s = true →
      ∃ t, runSteps n s = .next t ∧ t.regs = s.regs ∧ outputs t = outputs s

/-- The inputs are presented in order, one a step, and the parameters are never written (log 2, log 4). -/
def Obligations.RunsConsumeTheInputsInOrder : Prop :=
  ∀ (n : Nat) (s t : State), runSteps n s = .next t →
    t.params = s.params ∧ t.tape = s.tape.drop n ∧ t.stepNo = s.stepNo + n

/-! ## The liveness timer (the model of R79, the spec's decision D12; log 3) -/

/-- `rst` and the timer's count over one step. -/
def Obligations.TimerCountsAndRequestsRestart : Prop :=
  ∀ s t : State, step s = .next t →
    (rst s = true ↔ s.powerOn = true ∨ s.params.wdtTimeout.val ≤ s.wdtCnt) ∧
    (rst s = true ∨ s.phase = 0x02#5 → t.wdtCnt = 0) ∧
    (rst s = false → s.phase ≠ 0x02#5 → t.wdtCnt = s.wdtCnt + 1)

/-- Over `n` steps without a kick and without a restart the timer counts to `n` more, and the next step is a restart exactly
when power is cycled or the count has reached the timeout (L8). -/
def Obligations.TimerRestartsExactlyAtTheTimeout : Prop :=
  ∀ (n : Nat) (s t : State), quiet n s = true → runSteps n s = .next t →
    t.wdtCnt = s.wdtCnt + n ∧ (rst t = true ↔ t.powerOn = true ∨ s.params.wdtTimeout.val ≤ s.wdtCnt + n)

/-- No stall outlives the timer (R87): from every legal state, within `WDT_TIMEOUT` steps, there is a kick or a restart. -/
def Obligations.AStallEndsWithinTheTimeout : Prop :=
  ∀ s : State, SafeState s →
    ∃ n t, n ≤ s.params.wdtTimeout.val ∧ runSteps n s = .next t ∧ (rst t = true ∨ wdtKick t = true)

/-! ## Whole exchanges -/

/-- The law of `ir2device` for all timings (R64, L4, E1). The 35 waits see alternating levels of IR_RECEIVE, each after any
number of other samples, and no restart falls into the run. Then the run ends after `2 + (samples) + 1` steps in
`(DSP_DEV, 0, IN, ASSERTED, emit)`; the line starts DEASSERTED; after every sample `dev_drv` is the level just
sampled, with the line driven; the emitter is untouched; and the level sampled changes 35 times. The step counts rest on the
spec's decision D6 (log 8), the premise on the timer on D12 (log 3). -/
def Obligations.Ir2DeviceReplaysTheWholeExchange : Prop :=
  ∀ (s : State) (claim init release : Sample) (ws : List WaitInput) (rest : List Sample),
    s.phase = encode .i2dClaim → exchangeOn Sample.irRx ws →
    s.tape = claim :: init :: (samplesOf ws ++ release :: rest) →
    noPowerCycle (claim :: init :: (samplesOf ws ++ [release])) = true →
    s.wdtCnt + (samplesOf ws).length + 2 < s.params.wdtTimeout.val →
      (∃ t, runSteps ((samplesOf ws).length + 3) s = .next t ∧ t.tape = rest ∧
        t.regs = { phase := encode .dspDev, cnt := 0#4, devOe := .input, devDrv := .asserted, emit := s.emit }) ∧
      (∃ u, runSteps 2 s = .next u ∧ u.devOe = .output ∧ u.devDrv = .deasserted) ∧
      (∀ m a, (samplesOf ws)[m]? = some a →
        ∃ u, runSteps (m + 3) s = .next u ∧ u.devOe = .output ∧ u.devDrv = Drive.ofLevel a.irRx ∧ u.emit = s.emit) ∧
      changes (.low :: (samplesOf ws).map Sample.irRx) = 35

/-- The law of `device2ir` for all timings (R72, L5, E2), with any number of samples during which the receiver still reads
low before the guard completes. After every sample `emit` is the inverse of the level just sampled; the run ends in
`(DSP_KICK, 0, dev_oe, dev_drv, OFF)`, direction and drive of DEVICE_SIGNAL untouched. The case `echo = []`, in which the
guard completes without a receiver edge, is the spec's decision D7 (log 7, a DESIGN CHOICE, unsafe); the step counts rest
on D6 (log 8), the premise on the timer on D12 (log 3). -/
def Obligations.Device2IrReplaysTheWholeExchange : Prop :=
  ∀ (s : State) (on last : Sample) (ws : List WaitInput) (echo rest : List Sample),
    s.phase = encode .d2iOn → exchangeOn Sample.devIn ws →
    (∀ a ∈ echo, a.irRx = .low) → last.irRx = .high →
    s.tape = on :: (samplesOf ws ++ (echo ++ last :: rest)) →
    noPowerCycle (on :: (samplesOf ws ++ (echo ++ [last]))) = true →
    s.wdtCnt + (samplesOf ws).length + echo.length + 1 < s.params.wdtTimeout.val →
      (∃ t, runSteps ((samplesOf ws).length + echo.length + 2) s = .next t ∧ t.tape = rest ∧
        t.regs = { phase := encode .dspKick, cnt := 0#4, devOe := s.devOe, devDrv := s.devDrv, emit := .off }) ∧
      (∃ u, runSteps 1 s = .next u ∧ u.emit = .on) ∧
      (∀ m a, (samplesOf ws)[m]? = some a →
        ∃ u, runSteps (m + 2) s = .next u ∧ u.emit = Emitter.ofLevel a.devIn ∧ u.devOe = s.devOe ∧
          u.devDrv = s.devDrv) ∧
      (∀ m, m ≤ echo.length → ∃ u, runSteps ((samplesOf ws).length + 1 + m) s = .next u ∧
        u.phase = encode .d2iGuard ∧ u.emit = .off) ∧
      changes (.low :: (samplesOf ws).map Sample.devIn) = 35

/-- No run of a relay is shorter than the laws R64, R72 and R93 say: 38 steps for `ir2device`, 37 for `device2ir`, and 40
steps from a `DSP_IR` that starts `ir2device` to the kick of the same pass. -/
def Obligations.NoRelayRunIsShorterThanItsEdges : Prop :=
  ∀ (n : Nat) (s t : State), restartFree n s = true → runSteps n s = .next t →
    (s.phase = encode .i2dClaim → t.phase = encode .dspDev → 38 ≤ n) ∧
    (s.phase = encode .d2iOn → t.phase = encode .dspKick → 37 ≤ n) ∧
    (s.phase = encode .dspIr → readLevel .irReceive s = .low → t.phase = encode .dspKick → 40 ≤ n)

/-- Idempotence (R73, E3): two restart-free runs from the start of the same relay on the same inputs, in states of the
invariant, agree step by step on phase, counter, direction and emitter, and on the drive from the second step of
`ir2device` on (before that a stale drive may show, R90). -/
def Obligations.ARelayRunRepeatsItselfOnTheSameInputs : Prop :=
  ∀ (n : Nat) (s s' t t' : State),
    RelayInv s.regs → RelayInv s'.regs → s.phase = s'.phase →
    (s.phase = encode .i2dClaim ∨ s.phase = encode .d2iOn) →
    n ≤ s.tape.length → n ≤ s'.tape.length → s.tape.take n = s'.tape.take n →
    restartFree n s = true → restartFree n s' = true →
    runSteps n s = .next t → runSteps n s' = .next t' →
      t.phase = t'.phase ∧ t.cnt = t'.cnt ∧ t.devOe = t'.devOe ∧ t.emit = t'.emit ∧
      (s.phase = encode .i2dClaim → 2 ≤ n → t.devDrv = t'.devDrv)
end

