-- ==== Sys2Proof/Laws/Decode.lean ====
section
/-! SUPPORT. The decoder and the encoder on one operation, and what a decoded code says. -/

namespace Sys2Proof

@[simp] theorem decode_encode (i : Instr) : decode (encode i) = .ok i := by
  cases i <;> rfl

@[simp] theorem legalPhase_encode (i : Instr) : WellFormed.legalPhase (encode i) = true := by
  cases i <;> rfl

theorem encode_injective {i j : Instr} (h : encode i = encode j) : i = j := by
  have := congrArg decode h
  simpa using this

@[simp] theorem encode_inj {i j : Instr} : encode i = encode j ↔ i = j :=
  ⟨encode_injective, congrArg encode⟩

/-- The decoder checked on each of the 32 codes at once: it answers an operation of that code, or the code is reserved. -/
def decodeAgrees (c : PhaseCode) : Bool :=
  match decode c with
  | .ok i => decide (encode i = c) && WellFormed.legalPhase c
  | .error _ => !WellFormed.legalPhase c

theorem decodeAgrees_all : ∀ c : PhaseCode, decodeAgrees c = true := by
  decide

theorem encode_of_decode_ok {c : PhaseCode} {i : Instr} (h : decode c = .ok i) : encode i = c := by
  have := decodeAgrees_all c
  simp [decodeAgrees, h] at this
  exact this.1

theorem decode_error_reserved {c : PhaseCode} {e : DecodeError} (h : decode c = .error e) :
    WellFormed.legalPhase c = false := by
  have := decodeAgrees_all c
  simpa [decodeAgrees, h] using this

theorem exists_op_of_legal {c : PhaseCode} (h : WellFormed.legalPhase c = true) : ∃ i, c = encode i := by
  cases hd : decode c with
  | ok i => exact ⟨i, (encode_of_decode_ok hd).symm⟩
  | error e => simp [decode_error_reserved hd] at h

@[simp] theorem line_ofCode_code (l : Line) : Line.ofCode l.code = some l := by
  cases l <;> rfl

@[simp] theorem level_ofCode_code (v : Level) : Level.ofCode v.code = v := by
  cases v <;> rfl

@[simp] theorem direction_ofCode_code (v : Direction) : Direction.ofCode v.code = v := by
  cases v <;> rfl

@[simp] theorem drive_ofCode_code (v : Drive) : Drive.ofCode v.code = v := by
  cases v <;> rfl

@[simp] theorem emitter_ofCode_code (v : Emitter) : Emitter.ofCode v.code = v := by
  cases v <;> rfl

@[simp] theorem level_flip_flip (v : Level) : v.flip.flip = v := by
  cases v <;> rfl

theorem level_eq_flip_of_ne {v w : Level} (h : v ≠ w) : v = w.flip := by
  cases v <;> cases w <;> simp_all [Level.flip]

end Sys2Proof
end

