-- ==== Sys2Proof/Laws/State.lean ====
section
/-! SUPPORT. One lemma per field per update of State, and what each update leaves of the inputs, so that no proof unfolds a
record update. -/

namespace Sys2Proof.Machine

/-! ## The fields after each update -/

@[simp] theorem goto_phase (i : Instr) (s : State) : (goto i s).phase = encode i := rfl
@[simp] theorem goto_cnt (i : Instr) (s : State) : (goto i s).cnt = s.cnt := rfl
@[simp] theorem goto_devOe (i : Instr) (s : State) : (goto i s).devOe = s.devOe := rfl
@[simp] theorem goto_devDrv (i : Instr) (s : State) : (goto i s).devDrv = s.devDrv := rfl
@[simp] theorem goto_emit (i : Instr) (s : State) : (goto i s).emit = s.emit := rfl
@[simp] theorem goto_wdtCnt (i : Instr) (s : State) : (goto i s).wdtCnt = s.wdtCnt := rfl
@[simp] theorem goto_params (i : Instr) (s : State) : (goto i s).params = s.params := rfl
@[simp] theorem goto_tape (i : Instr) (s : State) : (goto i s).tape = s.tape := rfl
@[simp] theorem goto_stepNo (i : Instr) (s : State) : (goto i s).stepNo = s.stepNo := rfl

@[simp] theorem setDirection_phase (d : Direction) (s : State) : (setDirection d s).phase = s.phase := rfl
@[simp] theorem setDirection_cnt (d : Direction) (s : State) : (setDirection d s).cnt = s.cnt := rfl
@[simp] theorem setDirection_devOe (d : Direction) (s : State) : (setDirection d s).devOe = d := rfl
@[simp] theorem setDirection_devDrv (d : Direction) (s : State) : (setDirection d s).devDrv = s.devDrv := rfl
@[simp] theorem setDirection_emit (d : Direction) (s : State) : (setDirection d s).emit = s.emit := rfl
@[simp] theorem setDirection_wdtCnt (d : Direction) (s : State) : (setDirection d s).wdtCnt = s.wdtCnt := rfl
@[simp] theorem setDirection_params (d : Direction) (s : State) : (setDirection d s).params = s.params := rfl
@[simp] theorem setDirection_tape (d : Direction) (s : State) : (setDirection d s).tape = s.tape := rfl
@[simp] theorem setDirection_stepNo (d : Direction) (s : State) : (setDirection d s).stepNo = s.stepNo := rfl

@[simp] theorem clearCnt_phase (s : State) : (clearCnt s).phase = s.phase := rfl
@[simp] theorem clearCnt_cnt (s : State) : (clearCnt s).cnt = 0#4 := rfl
@[simp] theorem clearCnt_devOe (s : State) : (clearCnt s).devOe = s.devOe := rfl
@[simp] theorem clearCnt_devDrv (s : State) : (clearCnt s).devDrv = s.devDrv := rfl
@[simp] theorem clearCnt_emit (s : State) : (clearCnt s).emit = s.emit := rfl
@[simp] theorem clearCnt_wdtCnt (s : State) : (clearCnt s).wdtCnt = s.wdtCnt := rfl
@[simp] theorem clearCnt_params (s : State) : (clearCnt s).params = s.params := rfl
@[simp] theorem clearCnt_tape (s : State) : (clearCnt s).tape = s.tape := rfl
@[simp] theorem clearCnt_stepNo (s : State) : (clearCnt s).stepNo = s.stepNo := rfl

@[simp] theorem restart_phase (s : State) : (restart s).phase = encode .dspIr := rfl
@[simp] theorem restart_cnt (s : State) : (restart s).cnt = 0#4 := rfl
@[simp] theorem restart_devOe (s : State) : (restart s).devOe = .input := rfl
@[simp] theorem restart_devDrv (s : State) : (restart s).devDrv = s.params.devDrvReset := rfl
@[simp] theorem restart_emit (s : State) : (restart s).emit = .off := rfl
@[simp] theorem restart_wdtCnt (s : State) : (restart s).wdtCnt = s.wdtCnt := rfl
@[simp] theorem restart_params (s : State) : (restart s).params = s.params := rfl
@[simp] theorem restart_tape (s : State) : (restart s).tape = s.tape := rfl
@[simp] theorem restart_stepNo (s : State) : (restart s).stepNo = s.stepNo := rfl

@[simp] theorem setLevelDevice_phase (v : Drive) (s : State) : (setLevel (.deviceSignal v) s).phase = s.phase := rfl
@[simp] theorem setLevelDevice_cnt (v : Drive) (s : State) : (setLevel (.deviceSignal v) s).cnt = s.cnt := rfl
@[simp] theorem setLevelDevice_devOe (v : Drive) (s : State) : (setLevel (.deviceSignal v) s).devOe = s.devOe := rfl
@[simp] theorem setLevelDevice_devDrv (v : Drive) (s : State) : (setLevel (.deviceSignal v) s).devDrv = v := rfl
@[simp] theorem setLevelDevice_emit (v : Drive) (s : State) : (setLevel (.deviceSignal v) s).emit = s.emit := rfl
@[simp] theorem setLevelDevice_wdtCnt (v : Drive) (s : State) : (setLevel (.deviceSignal v) s).wdtCnt = s.wdtCnt := rfl
@[simp] theorem setLevelDevice_params (v : Drive) (s : State) : (setLevel (.deviceSignal v) s).params = s.params := rfl
@[simp] theorem setLevelDevice_tape (v : Drive) (s : State) : (setLevel (.deviceSignal v) s).tape = s.tape := rfl
@[simp] theorem setLevelDevice_stepNo (v : Drive) (s : State) : (setLevel (.deviceSignal v) s).stepNo = s.stepNo := rfl

@[simp] theorem setLevelEmit_phase (v : Emitter) (s : State) : (setLevel (.irEmit v) s).phase = s.phase := rfl
@[simp] theorem setLevelEmit_cnt (v : Emitter) (s : State) : (setLevel (.irEmit v) s).cnt = s.cnt := rfl
@[simp] theorem setLevelEmit_devOe (v : Emitter) (s : State) : (setLevel (.irEmit v) s).devOe = s.devOe := rfl
@[simp] theorem setLevelEmit_devDrv (v : Emitter) (s : State) : (setLevel (.irEmit v) s).devDrv = s.devDrv := rfl
@[simp] theorem setLevelEmit_emit (v : Emitter) (s : State) : (setLevel (.irEmit v) s).emit = v := rfl
@[simp] theorem setLevelEmit_wdtCnt (v : Emitter) (s : State) : (setLevel (.irEmit v) s).wdtCnt = s.wdtCnt := rfl
@[simp] theorem setLevelEmit_params (v : Emitter) (s : State) : (setLevel (.irEmit v) s).params = s.params := rfl
@[simp] theorem setLevelEmit_tape (v : Emitter) (s : State) : (setLevel (.irEmit v) s).tape = s.tape := rfl
@[simp] theorem setLevelEmit_stepNo (v : Emitter) (s : State) : (setLevel (.irEmit v) s).stepNo = s.stepNo := rfl

@[simp] theorem tick_phase (s t : State) : (tick s t).phase = t.phase := rfl
@[simp] theorem tick_cnt (s t : State) : (tick s t).cnt = t.cnt := rfl
@[simp] theorem tick_devOe (s t : State) : (tick s t).devOe = t.devOe := rfl
@[simp] theorem tick_devDrv (s t : State) : (tick s t).devDrv = t.devDrv := rfl
@[simp] theorem tick_emit (s t : State) : (tick s t).emit = t.emit := rfl
@[simp] theorem tick_wdtCnt (s t : State) : (tick s t).wdtCnt = wdtNext s := rfl
@[simp] theorem tick_params (s t : State) : (tick s t).params = t.params := rfl
@[simp] theorem tick_tape (s t : State) : (tick s t).tape = s.tape.tail := rfl
@[simp] theorem tick_stepNo (s t : State) : (tick s t).stepNo = s.stepNo + 1 := rfl

@[simp] theorem placeCode_phase (c : PhaseCode) (s : State) : (placeCode c s).phase = c := rfl
@[simp] theorem placeCode_cnt (c : PhaseCode) (s : State) : (placeCode c s).cnt = s.cnt := rfl
@[simp] theorem placeCode_devOe (c : PhaseCode) (s : State) : (placeCode c s).devOe = s.devOe := rfl
@[simp] theorem placeCode_devDrv (c : PhaseCode) (s : State) : (placeCode c s).devDrv = s.devDrv := rfl
@[simp] theorem placeCode_emit (c : PhaseCode) (s : State) : (placeCode c s).emit = s.emit := rfl
@[simp] theorem placeCode_wdtCnt (c : PhaseCode) (s : State) : (placeCode c s).wdtCnt = if wdtExpired s then 0 else s.wdtCnt := rfl
@[simp] theorem placeCode_params (c : PhaseCode) (s : State) : (placeCode c s).params = s.params := rfl
@[simp] theorem placeCode_tape (c : PhaseCode) (s : State) : (placeCode c s).tape = { s.sample with powerOn := false } :: s.tape.tail := rfl
@[simp] theorem placeCode_stepNo (c : PhaseCode) (s : State) : (placeCode c s).stepNo = s.stepNo := rfl

@[simp] theorem resetWith_phase (p : Params) (l : List Sample) : (State.resetWith p l).phase = 0#5 := rfl
@[simp] theorem resetWith_cnt (p : Params) (l : List Sample) : (State.resetWith p l).cnt = 0#4 := rfl
@[simp] theorem resetWith_devOe (p : Params) (l : List Sample) : (State.resetWith p l).devOe = .input := rfl
@[simp] theorem resetWith_devDrv (p : Params) (l : List Sample) : (State.resetWith p l).devDrv = p.devDrvReset := rfl
@[simp] theorem resetWith_emit (p : Params) (l : List Sample) : (State.resetWith p l).emit = .off := rfl
@[simp] theorem resetWith_wdtCnt (p : Params) (l : List Sample) : (State.resetWith p l).wdtCnt = 0 := rfl
@[simp] theorem resetWith_params (p : Params) (l : List Sample) : (State.resetWith p l).params = p := rfl
@[simp] theorem resetWith_tape (p : Params) (l : List Sample) : (State.resetWith p l).tape = l := rfl
@[simp] theorem resetWith_stepNo (p : Params) (l : List Sample) : (State.resetWith p l).stepNo = 1 := rfl

/-! ## The view of the registers -/

@[simp] theorem regs_phase (s : State) : s.regs.phase = s.phase := rfl
@[simp] theorem regs_cnt (s : State) : s.regs.cnt = s.cnt := rfl
@[simp] theorem regs_devOe (s : State) : s.regs.devOe = s.devOe := rfl
@[simp] theorem regs_devDrv (s : State) : s.regs.devDrv = s.devDrv := rfl
@[simp] theorem regs_emit (s : State) : s.regs.emit = s.emit := rfl
@[simp] theorem tick_regs (s t : State) : (tick s t).regs = t.regs := rfl

/-- `Restart` leaves the registers that the reset state with the same parameters has (R74). -/
theorem restart_regs (s : State) (l : List Sample) :
    (restart s).regs = (State.resetWith s.params l).regs := rfl

/-! ## The inputs of a step depend on the tape and the step number alone -/

theorem sample_congr {s t : State} (ht : s.tape = t.tape) (hk : s.stepNo = t.stepNo) :
    s.sample = t.sample := by
  simp [State.sample, ht, hk]

@[simp] theorem sample_of_cons (s : State) (a : Sample) (l : List Sample) (h : s.tape = a :: l) :
    s.sample = a := by
  simp [State.sample, h]

@[simp] theorem placeCode_sample (c : PhaseCode) (s : State) :
    (placeCode c s).sample = { s.sample with powerOn := false } := rfl

@[simp] theorem placeCode_irRx (c : PhaseCode) (s : State) : (placeCode c s).irRx = s.irRx := rfl
@[simp] theorem placeCode_devIn (c : PhaseCode) (s : State) : (placeCode c s).devIn = s.devIn := rfl

@[simp] theorem readLevel_irReceive (s : State) : readLevel .irReceive s = s.irRx := rfl
@[simp] theorem readLevel_deviceSignal (s : State) : readLevel .deviceSignal s = s.devIn := rfl

/-- A step on which a code has been placed is not a `Restart`. -/
@[simp] theorem rst_placeCode (c : PhaseCode) (s : State) : rst (placeCode c s) = false := by
  have h := s.params.wdtTimeout.property
  by_cases hx : s.params.wdtTimeout.val ≤ s.wdtCnt
  · simp [rst, State.powerOn, wdtExpired, hx]; omega
  · simp [rst, State.powerOn, wdtExpired, hx]

end Sys2Proof.Machine
end

