-- ==== Sys2Proof/Laws/Ops.lean ====
section
/-! SUPPORT. One lemma per shared operation: everything it can do. -/

namespace Sys2Proof.Machine

theorem waitLevel_done {l : Line} {w : Level} {f : State → State} {s : State} (h : readLevel l s = w) :
    waitLevel l w f s = f s := by
  simp [waitLevel, h]

theorem waitLevel_stay {l : Line} {w : Level} {f : State → State} {s : State} (h : readLevel l s ≠ w) :
    waitLevel l w f s = s := by
  simp [waitLevel, h]

/-- An edge wait completes on the wanted level or leaves the whole state as it is (R32). -/
theorem waitLevel_cases (l : Line) (w : Level) (f : State → State) (s : State) :
    (readLevel l s = w ∧ waitLevel l w f s = f s) ∨ (readLevel l s ≠ w ∧ waitLevel l w f s = s) := by
  by_cases h : readLevel l s = w
  · exact .inl ⟨h, waitLevel_done h⟩
  · exact .inr ⟨h, waitLevel_stay h⟩

theorem countPulse_last {i j : Instr} {s : State} (h : s.cnt = 15#4) :
    countPulse i j s = { s with cnt := 0#4, phase := encode j } := by
  simp [countPulse, lastPulse, terminalCount, h, goto]

theorem countPulse_more {i j : Instr} {s : State} (h : s.cnt ≠ 15#4) :
    countPulse i j s = { s with cnt := s.cnt + 1#4, phase := encode i } := by
  simp [countPulse, lastPulse, terminalCount, h, goto]

/-- A data pulse is the last and leaves the loop, or is counted without overflow (R14). -/
theorem countPulse_cases (i j : Instr) (s : State) :
    (s.cnt = 15#4 ∧ countPulse i j s = { s with cnt := 0#4, phase := encode j }) ∨
    (s.cnt ≠ 15#4 ∧ countPulse i j s = { s with cnt := s.cnt + 1#4, phase := encode i }) := by
  by_cases h : s.cnt = 15#4
  · exact .inl ⟨h, countPulse_last h⟩
  · exact .inr ⟨h, countPulse_more h⟩

theorem count_succ_toNat {c : Count} (h : c ≠ 15#4) : (c + 1#4).toNat = c.toNat + 1 := by
  revert h
  revert c
  decide

/-- A check goes to the relay on an active line and on to the other operation otherwise (R52, R53). -/
theorem checkLine_cases (l : Line) (i j : Instr) (s : State) :
    (readLevel l s = .low ∧ checkLine l i j s = goto i s) ∨ (readLevel l s = .high ∧ checkLine l i j s = goto j s) := by
  cases h : readLevel l s with
  | low => exact .inl ⟨rfl, by simp [checkLine, readsActive, h]⟩
  | high => exact .inr ⟨rfl, by simp [checkLine, readsActive, h]⟩

/-- A line read as wanted or not: there are two levels. -/
theorem level_ne_high_iff {v : Level} : v ≠ .high ↔ v = .low := by
  cases v <;> simp

theorem level_ne_low_iff {v : Level} : v ≠ .low ↔ v = .high := by
  cases v <;> simp

/-- A step that starts with a fresh timer and no power cycle is not a `Restart`. -/
theorem rst_eq_false_iff (s : State) :
    rst s = false ↔ s.powerOn = false ∧ s.wdtCnt < s.params.wdtTimeout.val := by
  simp [rst, wdtExpired]

theorem rst_eq_true_iff (s : State) :
    rst s = true ↔ s.powerOn = true ∨ s.params.wdtTimeout.val ≤ s.wdtCnt := by
  simp [rst, wdtExpired]

theorem wdtKick_eq_true_iff (s : State) : wdtKick s = true ↔ s.phase = encode .dspKick := by
  simp [wdtKick]

end Sys2Proof.Machine
end

