-- ==== Sys2Proof/Laws/PerInstr.lean ====
section
/-! SUPPORT. Statements about every operation as syntax, one lemma per constructor (LAWS.json). -/

namespace Sys2Proof.Laws.RoundTrip

/-- The code of the operation is legal (R47) and selects that operation (R42). -/
def Statement (i : Instr) : Prop :=
  WellFormed.legalPhase (encode i) = true ∧ decode (encode i) = .ok i

theorem dspIr : Statement .dspIr := ⟨rfl, rfl⟩
theorem dspDev : Statement .dspDev := ⟨rfl, rfl⟩
theorem dspKick : Statement .dspKick := ⟨rfl, rfl⟩
theorem i2dClaim : Statement .i2dClaim := ⟨rfl, rfl⟩
theorem i2dInit : Statement .i2dInit := ⟨rfl, rfl⟩
theorem i2dReset : Statement .i2dReset := ⟨rfl, rfl⟩
theorem i2dStart : Statement .i2dStart := ⟨rfl, rfl⟩
theorem i2dDataR : Statement .i2dDataR := ⟨rfl, rfl⟩
theorem i2dDataF : Statement .i2dDataF := ⟨rfl, rfl⟩
theorem i2dStop : Statement .i2dStop := ⟨rfl, rfl⟩
theorem i2dRelease : Statement .i2dRelease := ⟨rfl, rfl⟩
theorem d2iOn : Statement .d2iOn := ⟨rfl, rfl⟩
theorem d2iReset : Statement .d2iReset := ⟨rfl, rfl⟩
theorem d2iStart : Statement .d2iStart := ⟨rfl, rfl⟩
theorem d2iDataR : Statement .d2iDataR := ⟨rfl, rfl⟩
theorem d2iDataF : Statement .d2iDataF := ⟨rfl, rfl⟩
theorem d2iStop : Statement .d2iStop := ⟨rfl, rfl⟩
theorem d2iGuard : Statement .d2iGuard := ⟨rfl, rfl⟩

end Sys2Proof.Laws.RoundTrip
end

