-- ==== Sys2Proof/Laws/Step.lean ====
section
/-! SUPPORT. What one step can do, said once, and how runs compose. -/

namespace Sys2Proof.Machine

/-- Everything a step that answers a next state can have done: a `Restart`, or the selected operation; and then the end
of the step. -/
theorem step_cases {s t : State} (h : step s = .next t) :
    (rst s = true ∧ t = tick s (restart s)) ∨
    (rst s = false ∧ ∃ i u, s.phase = encode i ∧ exec i s = .next u ∧ t = tick s u) := by
  unfold step cycle at h
  cases hr : rst s with
  | true =>
    simp only [blockStep, hr, if_true] at h
    cases h
    exact .inl ⟨rfl, rfl⟩
  | false =>
    refine .inr ⟨rfl, ?_⟩
    simp only [blockStep, hr, Bool.false_eq_true, if_false, perform] at h
    cases hd : decode s.phase with
    | error e => simp [hd] at h
    | ok i =>
      simp only [hd] at h
      cases he : exec i s with
      | next u =>
        simp only [he] at h
        cases h
        exact ⟨i, u, (encode_of_decode_ok hd).symm, he, rfl⟩
      | fault r => simp [he] at h
      | refused r => simp [he] at h

/-- What an operation leaves alone: everything outside the five registers of the block. -/
theorem exec_keeps_surroundings {i : Instr} {s u : State} (h : exec i s = .next u) :
    u.wdtCnt = s.wdtCnt ∧ u.params = s.params ∧ u.tape = s.tape ∧ u.stepNo = s.stepNo := by
  cases i <;> cases h <;>
    (try simp only [checkLine, waitLevel, countPulse]) <;>
    (repeat' split) <;> exact ⟨rfl, rfl, rfl, rfl⟩

/-- The timer, the parameters, the tape and the step number after a step. -/
theorem step_around {s t : State} (h : step s = .next t) :
    t.wdtCnt = wdtNext s ∧ t.params = s.params ∧ t.tape = s.tape.tail ∧ t.stepNo = s.stepNo + 1 := by
  rcases step_cases h with ⟨-, rfl⟩ | ⟨-, i, u, -, he, rfl⟩
  · exact ⟨rfl, rfl, rfl, rfl⟩
  · exact ⟨rfl, (exec_keeps_surroundings he).2.1, rfl, rfl⟩

end Sys2Proof.Machine

namespace Sys2Proof.Safety

open Sys2Proof.Machine

@[simp] theorem runSteps_zero (s : State) : runSteps 0 s = .next s := rfl

theorem runSteps_succ_of_step {n : Nat} {s t : State} (h : step s = .next t) :
    runSteps (n + 1) s = runSteps n t := by
  simp [runSteps, h]

/-- A run that answers a next state, cut after its first step. -/
theorem runSteps_succ_cases {n : Nat} {s u : State} (h : runSteps (n + 1) s = .next u) :
    ∃ t, step s = .next t ∧ runSteps n t = .next u := by
  cases hs : step s with
  | next t => exact ⟨t, rfl, by simpa [runSteps, hs] using h⟩
  | fault r => simp [runSteps, hs] at h
  | refused r => simp [runSteps, hs] at h

/-- Two runs one after the other are one run. -/
theorem runSteps_add {m n : Nat} {s t u : State} (h : runSteps m s = .next t) (g : runSteps n t = .next u) :
    runSteps (m + n) s = .next u := by
  induction m generalizing s with
  | zero =>
    cases h
    simpa using g
  | succ m ih =>
    obtain ⟨a, ha, hr⟩ := runSteps_succ_cases h
    rw [Nat.succ_add, runSteps_succ_of_step ha]
    exact ih hr

/-- `runSteps` is the host's run of the machine. -/
theorem runSteps_eq_core_run (n : Nat) (s : State) : runSteps n s = Host.Core.run core n s := by
  induction n generalizing s with
  | zero => rfl
  | succ n ih =>
    cases hs : step s with
    | next t =>
      have hc : core.step s = .next t := hs
      simp only [runSteps, hs, Host.Core.run, hc]
      exact ih t
    | fault r =>
      have hc : core.step s = .fault r := hs
      simp only [runSteps, hs, Host.Core.run, hc]
      rfl
    | refused r =>
      have hc : core.step s = .refused r := hs
      simp only [runSteps, hs, Host.Core.run, hc]
      rfl

/-- An invariant of the step holds after any run. -/
theorem runSteps_keeps {P : State → Prop} (hP : ∀ s t, P s → step s = .next t → P t) {n : Nat} {s t : State}
    (hs : P s) (h : runSteps n s = .next t) : P t := by
  induction n generalizing s with
  | zero =>
    cases h
    exact hs
  | succ n ih =>
    obtain ⟨a, ha, hr⟩ := runSteps_succ_cases h
    exact ih (hP s a hs ha) hr

end Sys2Proof.Safety
end

