-- ==== Sys2Proof/Tests/Slice0.lean ====
section
/-! SUPPORT. Tests. Expected results are the vectors of spec/95_test_vectors.md (V1 to V49, W1, W2, P1, P3), whose digits
the helpers take as they stand there, and the encodings of R42. The witnesses at the end show that the hypotheses of each
statement can be met. -/

namespace Sys2Proof.Tests

open Sys2Proof.Machine Sys2Proof.Safety

/-- One sample from the digits `power_on ir_rx dev_in`. -/
def sm (p : Bool) (ir dev : BitVec 1) : Sample := ⟨p, Level.ofCode ir, Level.ofCode dev⟩

/-- Parameters with a timeout of 100 steps and the defaults. -/
def par : Params := { wdtTimeout := ⟨100, by decide⟩ }

/-- A state from the digits of a vector: `(phase, cnt, dev_oe, dev_drv, emit)`, and the inputs `rst ir_rx dev_in`. -/
def st (phase : PhaseCode) (cnt : Count) (oe drv em : BitVec 1) (r : Bool) (ir dev : BitVec 1) : State :=
  { phase := phase, cnt := cnt, devOe := Direction.ofCode oe, devDrv := Drive.ofCode drv, emit := Emitter.ofCode em,
    wdtCnt := 0, params := par, tape := [sm r ir dev], stepNo := 0 }

/-- The registers after a step, as digits. -/
def after (s : State) : Option (PhaseCode × Count × BitVec 1 × BitVec 1 × BitVec 1) :=
  (nextRegs (step s)).map fun r => (r.phase, r.cnt, r.devOe.code, r.devDrv.code, r.emit.code)

/-! ## Encoding -/

theorem test_dispatch_words :
    decodeTableWord 8 0b00000 = some .dspIr ∧ decodeTableWord 8 0b00001 = some .dspDev ∧
    decodeTableWord 8 0b00010 = some .dspKick := by decide

theorem test_ir2device_words :
    decodeTableWord 8 0b01000 = some .i2dClaim ∧ decodeTableWord 8 0b01001 = some .i2dInit ∧
    decodeTableWord 8 0b01010 = some .i2dReset ∧ decodeTableWord 8 0b01011 = some .i2dStart ∧
    decodeTableWord 8 0b01100 = some .i2dDataR ∧ decodeTableWord 8 0b01101 = some .i2dDataF ∧
    decodeTableWord 8 0b01110 = some .i2dStop ∧ decodeTableWord 8 0b01111 = some .i2dRelease := by decide

theorem test_device2ir_words :
    decodeTableWord 8 0b10000 = some .d2iOn ∧ decodeTableWord 8 0b10010 = some .d2iReset ∧
    decodeTableWord 8 0b10011 = some .d2iStart ∧ decodeTableWord 8 0b10100 = some .d2iDataR ∧
    decodeTableWord 8 0b10101 = some .d2iDataF ∧ decodeTableWord 8 0b10110 = some .d2iStop ∧
    decodeTableWord 8 0b10111 = some .d2iGuard := by decide

/-- R47: the reserved codes, by name. -/
theorem test_reserved_codes :
    decode 0x03#5 = .error (.reservedStep 0x03#5) ∧ decode 0x07#5 = .error (.reservedStep 0x07#5) ∧
    decode 0x11#5 = .error (.reservedStep 0x11#5) ∧ decode 0x18#5 = .error (.reservedMode 0x18#5) ∧
    decode 0x1F#5 = .error (.reservedMode 0x1F#5) := ⟨rfl, rfl, rfl, rfl, rfl⟩

/-- Every code of the column `hex` of R42, in the order of the hardwired program. -/
theorem test_program_codes :
    codes hardwiredProgram =
      [0x00#5, 0x01#5, 0x02#5, 0x08#5, 0x09#5, 0x0A#5, 0x0B#5, 0x0C#5, 0x0D#5, 0x0E#5, 0x0F#5] ++
      [0x10#5, 0x12#5, 0x13#5, 0x14#5, 0x15#5, 0x16#5, 0x17#5] := by decide

/-! ## Well-formedness: an ill-formed number for each check -/

theorem test_reserved_phase_refused :
    WellFormed.legalPhase 0x1B#5 = false ∧ WellFormed.legalPhase 0x11#5 = false ∧ WellFormed.legalPhase 0x05#5 = false := by
  decide

theorem test_reserved_line_refused : WellFormed.legalLineCode 3#2 = false ∧ Line.ofCode 3#2 = none := by decide

theorem test_zero_timeout_refused : WellFormed.legalTimeout 0 = false ∧ WellFormed.legalTimeout 1 = true := by decide

/-! ## One step of each operation -/

theorem test_V1 : after (st 0x00 0 0 0 0 false 0 1) = some (0x08#5, 0#4, 0#1, 0#1, 0#1) := by decide
theorem test_V2 : after (st 0x00 0 0 0 0 false 1 0) = some (0x01#5, 0#4, 0#1, 0#1, 0#1) := by decide
theorem test_V3 : after (st 0x01 0 0 1 0 false 1 0) = some (0x10#5, 0#4, 0#1, 1#1, 0#1) := by decide
theorem test_V4 : after (st 0x01 0 0 1 0 false 0 1) = some (0x02#5, 0#4, 0#1, 1#1, 0#1) := by decide
theorem test_V5 :
    after (st 0x02 0 0 0 0 false 0 0) = some (0x00#5, 0#4, 0#1, 0#1, 0#1) ∧
    outputs (st 0x02 0 0 0 0 false 0 0) = ⟨0#1, 0#1, 1#1, 1#1⟩ := by decide
theorem test_V6 : after (st 0x08 0 0 1 0 false 0 0) = some (0x09#5, 0#4, 1#1, 1#1, 0#1) := by decide
theorem test_V8 :
    after (st 0x09 0 1 1 0 false 0 0) = some (0x0A#5, 0#4, 1#1, 0#1, 0#1) ∧
    outputs (st 0x09 0 1 1 0 false 0 0) = ⟨1#1, 1#1, 1#1, 0#1⟩ := by decide
theorem test_V9 : after (st 0x0A 0 1 0 0 false 0 1) = some (0x0A#5, 0#4, 1#1, 0#1, 0#1) := by decide
theorem test_V10 : after (st 0x0A 0 1 0 0 false 1 0) = some (0x0B#5, 0#4, 1#1, 1#1, 0#1) := by decide
theorem test_V11 : after (st 0x0B 0 1 1 0 false 1 0) = some (0x0B#5, 0#4, 1#1, 1#1, 0#1) := by decide
theorem test_V13 : after (st 0x0B 5 1 1 0 false 0 1) = some (0x0C#5, 0#4, 1#1, 0#1, 0#1) := by decide
theorem test_V14 : after (st 0x0C 7 1 0 0 false 0 1) = some (0x0C#5, 7#4, 1#1, 0#1, 0#1) := by decide
theorem test_V15 : after (st 0x0C 0 1 0 0 false 1 0) = some (0x0D#5, 0#4, 1#1, 1#1, 0#1) := by decide
theorem test_V18 : after (st 0x0D 14 1 1 0 false 0 1) = some (0x0C#5, 15#4, 1#1, 0#1, 0#1) := by decide
theorem test_V20 : after (st 0x0D 15 1 1 0 false 0 1) = some (0x0E#5, 0#4, 1#1, 0#1, 0#1) := by decide
theorem test_V21 : after (st 0x0E 0 1 0 0 false 0 1) = some (0x0E#5, 0#4, 1#1, 0#1, 0#1) := by decide
theorem test_V22 : after (st 0x0E 0 1 0 0 false 1 0) = some (0x0F#5, 0#4, 1#1, 1#1, 0#1) := by decide
theorem test_V23 : after (st 0x0F 0 1 1 0 false 0 0) = some (0x01#5, 0#4, 0#1, 1#1, 0#1) := by decide
theorem test_V24 : after (st 0x10 0 0 0 0 false 1 1) = some (0x12#5, 0#4, 0#1, 0#1, 1#1) := by decide
theorem test_V25 : after (st 0x12 0 0 0 1 false 1 0) = some (0x12#5, 0#4, 0#1, 0#1, 1#1) := by decide
theorem test_V26 : after (st 0x12 0 0 0 1 false 0 1) = some (0x13#5, 0#4, 0#1, 0#1, 0#1) := by decide
theorem test_V27 : after (st 0x13 0 0 0 0 false 0 1) = some (0x13#5, 0#4, 0#1, 0#1, 0#1) := by decide
theorem test_V28 : after (st 0x13 0 0 0 0 false 1 0) = some (0x14#5, 0#4, 0#1, 0#1, 1#1) := by decide
theorem test_V29 : after (st 0x14 3 0 1 1 false 1 0) = some (0x14#5, 3#4, 0#1, 1#1, 1#1) := by decide
theorem test_V30 : after (st 0x14 3 0 1 1 false 0 1) = some (0x15#5, 3#4, 0#1, 1#1, 0#1) := by decide
theorem test_V32 : after (st 0x15 14 0 0 0 false 1 0) = some (0x14#5, 15#4, 0#1, 0#1, 1#1) := by decide
theorem test_V34 : after (st 0x15 15 0 0 0 false 1 0) = some (0x16#5, 0#4, 0#1, 0#1, 1#1) := by decide
theorem test_V35 : after (st 0x16 0 0 0 1 false 1 0) = some (0x16#5, 0#4, 0#1, 0#1, 1#1) := by decide
theorem test_V36 : after (st 0x16 0 0 0 1 false 0 1) = some (0x17#5, 0#4, 0#1, 0#1, 0#1) := by decide
theorem test_V37 : after (st 0x17 0 0 0 0 false 0 1) = some (0x17#5, 0#4, 0#1, 0#1, 0#1) := by decide
theorem test_V38 : after (st 0x17 0 0 0 0 false 1 0) = some (0x02#5, 0#4, 0#1, 0#1, 0#1) := by decide

/-! ## Outputs, Restart, timer, trace -/

theorem test_V41 :
    outputs { st 0x0B 0 1 1 0 false 0 0 with params := { par with devAssertLevel := .low, emitOnLevel := .high } } =
      ⟨1#1, 0#1, 0#1, 0#1⟩ := by decide

theorem test_V43 :
    outputs { st 0x12 0 0 0 1 false 0 0 with params := { par with devAssertLevel := .low, emitOnLevel := .high } } =
      ⟨0#1, 1#1, 1#1, 0#1⟩ := by decide

theorem test_V44 : after (st 0x0D 9 1 1 0 true 0 0) = some (0x00#5, 0#4, 0#1, 0#1, 0#1) := by decide
theorem test_V45 : after (st 0x16 0 0 1 1 true 0 0) = some (0x00#5, 0#4, 0#1, 0#1, 0#1) := by decide
theorem test_V48 :
    after { st 0x0E 0 1 0 0 true 0 0 with params := { par with devDrvReset := .asserted } } =
      some (0x00#5, 0#4, 0#1, 1#1, 0#1) := by decide

/-- V49: a reserved code faults, but for a `Restart`. -/
theorem test_V49 :
    step (st 0x1B 0 0 0 0 false 0 0) = .fault (.reservedPhase 0x1B#5) ∧
    after (st 0x1B 0 0 0 0 true 0 0) = some (0x00#5, 0#4, 0#1, 0#1, 0#1) := ⟨rfl, by decide⟩

/-- The `DSP_KICK` step of an idle pass, at `wdt_cnt = 2`, with a given timeout. -/
def kickAt (n : Timeout) : State :=
  { st 0x02 0 0 0 0 false 1 1 with wdtCnt := 2, params := { par with wdtTimeout := n } }

/-- W1 and W2, step 3: with `WDT_TIMEOUT = 3` the kick is in time, with 2 the step is a `Restart`. -/
theorem test_W1_W2 : rst (kickAt ⟨3, by decide⟩) = false ∧ rst (kickAt ⟨2, by decide⟩) = true := by decide

/-- P3, step 24: the stalled exchange is ended by the timer. -/
theorem test_P3_timeout :
    after { st 0x0C 2 1 0 0 false 0 0 with wdtCnt := 20, params := { par with wdtTimeout := ⟨20, by decide⟩ } } =
      some (0x00#5, 0#4, 0#1, 0#1, 0#1) := by decide

/-- P1, step 9, as a trace line. -/
theorem test_P1_trace_line :
    traceLine { st 0x0D 1 1 1 0 false 0 0 with stepNo := 9 } =
      { k := 9, op := some .i2dDataF, rst := false, irRx := some .low, devIn := none,
        regs := ⟨0x0D#5, 1#4, .output, .asserted, .off⟩, outputs := ⟨1#1, 1#1, 1#1, 0#1⟩ } := by decide

theorem test_mnemonics : hardwiredProgram.map mnemonic =
    ["DSP_IR", "DSP_DEV", "DSP_KICK", "I2D_CLAIM", "I2D_INIT", "I2D_RESET", "I2D_START", "I2D_DATA_R", "I2D_DATA_F"] ++
    ["I2D_STOP", "I2D_RELEASE", "D2I_ON", "D2I_RESET", "D2I_START", "D2I_DATA_R", "D2I_DATA_F", "D2I_STOP", "D2I_GUARD"] := by
  decide

/-- Every row of the table runs as the first step after reset, and a reserved code does not. -/
theorem test_fetch_word_after_reset :
    (hardwiredProgram.all fun i => (nextRegs (step (State.reset.withFetchWord 8 (encode i).toNat))).isSome) = true ∧
    nextRegs (step (State.reset.withFetchWord 8 0x1B)) = none := by decide

/-! ## Witnesses: the hypotheses of the statements can be met -/

theorem witness_levels_of_each_line :
    readLevel .irReceive (st 0 0 0 0 0 false 0 1) = .low ∧ readLevel .irReceive (st 0 0 0 0 0 false 1 0) = .high ∧
    readLevel .deviceSignal (st 0 0 0 0 0 false 1 0) = .low ∧ readLevel .deviceSignal (st 0 0 0 0 0 false 0 1) = .high := by
  decide

/-- At both boundaries of the counter the data falling edges can complete: the last pulse, the one before, the first. -/
theorem witness_DataFallingEdges :
    (readLevel .irReceive (st 0x0D 15 1 1 0 false 0 1) = .low ∧ (st 0x0D 15 1 1 0 false 0 1).cnt = 15#4) ∧
    (readLevel .irReceive (st 0x0D 14 1 1 0 false 0 1) = .low ∧ (st 0x0D 14 1 1 0 false 0 1).cnt ≠ 15#4) ∧
    (readLevel .deviceSignal (st 0x15 15 0 0 0 false 1 0) = .low ∧ (st 0x15 15 0 0 0 false 1 0).cnt = 15#4) ∧
    (readLevel .deviceSignal (st 0x15 0 0 0 0 false 1 0) = .low ∧ (st 0x15 0 0 0 0 false 1 0).cnt ≠ 15#4) := by decide

/-- `RestartWritesEveryRegisterInOneStep`, `InvariantHoldsAfterRestart`: by power-on, by the timer, at a reserved code. -/
theorem witness_Restart :
    rst (st 0x0D 9 1 1 0 true 0 0) = true ∧ rst { st 0x0D 9 1 1 0 false 0 0 with wdtCnt := 100 } = true ∧
    rst (st 0x1B 0 0 0 0 true 0 0) = true ∧ ∃ t, step (st 0x1B 0 0 0 0 true 0 0) = .next t :=
  ⟨by decide, by decide, by decide, _, rfl⟩

theorem witness_RestartLeavesNoTraceOfItsCause :
    ∃ s s' t t' : State, s.params = s'.params ∧ rst s = true ∧ rst s' = true ∧ s.regs ≠ s'.regs ∧
      step s = .next t ∧ step s' = .next t' :=
  ⟨st 0x0D 9 1 1 0 true 0 0, { st 0x16 0 0 1 1 false 0 0 with wdtCnt := 100 }, _, _, rfl, by decide, by decide, by decide,
    rfl, rfl⟩

theorem witness_StepPerformsTheOperationThatPhaseSelects :
    ∃ (s t : State) (i : Instr), decode s.phase = .ok i ∧ rst s = false ∧ exec i s = .next t :=
  ⟨st 0x08 0 0 1 0 false 0 0, _, .i2dClaim, rfl, by decide, rfl⟩

theorem witness_OnlyReservedCodesStopTheMachine :
    rst (st 0x11 0 0 0 0 false 0 0) = false ∧ WellFormed.legalPhase (st 0x11 0 0 0 0 false 0 0).phase = false := by decide

theorem witness_SafeState : SafeState State.reset ∧ SafeState (st 0x17 0 0 0 0 false 0 0) := by decide

theorem witness_PlacedWordIsTheNextOperationRun :
    ∃ t, 5 ≤ 8 ∧ decodeTableWord 8 0x17 = some .d2iGuard ∧ exec .d2iGuard (State.reset.withFetchWord 8 0x17) = .next t :=
  ⟨_, by decide, by decide, rfl⟩

/-- `TableWordsDecodeExactlyToTheirCodes` at the least `nbits`. -/
theorem witness_TableWords : 5 ≤ 5 ∧ decodeTableWord 5 0x17 = some .d2iGuard ∧ decodeTableWord 5 0x1F = none := by decide

theorem witness_StepKeepsTheInvariant :
    ∃ s t : State, RelayInv s.regs ∧ step s = .next t ∧ s.phase = encode .i2dDataF :=
  ⟨st 0x0D 15 1 1 0 false 0 0, _, by decide, rfl, by decide⟩

theorem witness_InvariantIsExactlyReachability :
    RelayInv ⟨0x15#5, 15#4, .input, .asserted, .off⟩ ∧ ¬RelayInv ⟨0x15#5, 15#4, .output, .asserted, .off⟩ := by decide

/-- `EachLineIsReachedOnlyByItsListedOperations`: two states that differ in the unread line only. -/
theorem witness_EachLine :
    ∃ s t : State, s.regs = t.regs ∧ s.irRx = t.irRx ∧ s.devIn ≠ t.devIn ∧ RelayInv s.regs ∧ s.phase = encode .i2dStop :=
  ⟨st 0x0E 0 1 0 0 false 1 0, st 0x0E 0 1 0 0 false 1 1, by decide, by decide, by decide, by decide, by decide⟩

theorem witness_OperationsLeaveTheRestUnchanged :
    ∃ s t : State, exec .i2dDataF s = .next t ∧ t.cnt ≠ s.cnt ∧ t.devDrv ≠ s.devDrv :=
  ⟨st 0x0D 14 1 1 0 false 0 0, _, rfl, by decide, by decide⟩

/-- `EachClassAdvancesPhaseItsWay`: a phase of each class without `rst`. -/
theorem witness_EachClass :
    (rst (st 0x0F 0 1 1 0 false 0 0) = false ∧ decode 0x0F#5 = .ok .i2dRelease ∧ opClass .i2dRelease = .unconditional) ∧
    (rst (st 0x01 0 0 0 0 false 0 0) = false ∧ decode 0x01#5 = .ok .dspDev ∧ opClass .dspDev = .check) ∧
    (rst (st 0x17 0 0 0 0 false 0 0) = false ∧ decode 0x17#5 = .ok .d2iGuard ∧ opClass .d2iGuard = .edgeWait) :=
  ⟨⟨by decide, rfl, rfl⟩, ⟨by decide, rfl, rfl⟩, ⟨by decide, rfl, rfl⟩⟩

/-- Each premise of `CountIsWrittenInThreeWaysOnly`, in both relays: the start edge, the pulse edge at 0, 14 and 15, and a
step with neither (a stall at the data falling edge). -/
theorem witness_CountWays :
    StartEdgeSeen (st 0x0B 5 1 1 0 false 0 0) ∧ StartEdgeSeen (st 0x13 5 0 0 0 false 0 0) ∧
    PulseEdgeSeen (st 0x0D 0 1 1 0 false 0 1) ∧ PulseEdgeSeen (st 0x15 14 0 0 0 false 1 0) ∧
    PulseEdgeSeen (st 0x15 15 0 0 0 false 1 0) ∧
    ¬StartEdgeSeen (st 0x0D 9 1 1 0 false 1 0) ∧ ¬PulseEdgeSeen (st 0x0D 9 1 1 0 false 1 0) ∧
    rst (st 0x0D 9 1 1 0 false 1 0) = false ∧ ∃ t, step (st 0x0D 9 1 1 0 false 1 0) = .next t :=
  ⟨by decide, by decide, by decide, by decide, by decide, by decide, by decide, by decide, _, rfl⟩

/-- `TheLevelMuxRoutesTheLevelJustRead`, `OneRelayNeverTouchesTheOthersOutput`: a completing wait of each direction, a stay,
and a dispatch step. -/
theorem witness_LevelMux :
    (∃ t, rst (st 0x0E 0 1 0 0 false 1 0) = false ∧ step (st 0x0E 0 1 0 0 false 1 0) = .next t ∧ t.phase ≠ 0x0E#5 ∧
      modeField 0x0E#5 = 0b01#2) ∧
    (∃ t, rst (st 0x16 0 0 0 1 false 0 1) = false ∧ step (st 0x16 0 0 0 1 false 0 1) = .next t ∧ t.phase ≠ 0x16#5 ∧
      modeField 0x16#5 = 0b10#2) ∧
    (∃ t, rst (st 0x17 0 0 0 0 false 0 1) = false ∧ step (st 0x17 0 0 0 0 false 0 1) = .next t ∧ t.phase = 0x17#5) ∧
    (∃ t, rst (st 0x01 0 0 1 0 false 0 1) = false ∧ step (st 0x01 0 0 1 0 false 0 1) = .next t ∧
      modeField 0x01#5 = 0b00#2) :=
  ⟨⟨_, by decide, rfl, by decide, by decide⟩, ⟨_, by decide, rfl, by decide, by decide⟩, ⟨_, by decide, rfl, by decide⟩,
    ⟨_, by decide, rfl, by decide⟩⟩

theorem witness_TheLevelOfADrivenLineIsNeverRead :
    ∃ s t : State, RelayInv s.regs ∧ s.devOe = .output ∧ s.regs = t.regs ∧ s.params = t.params ∧ rst s = rst t ∧
      s.irRx = t.irRx ∧ s.devIn ≠ t.devIn :=
  ⟨st 0x0C 3 1 0 0 false 1 0, st 0x0C 3 1 0 0 false 1 1, by decide, by decide, by decide, rfl, by decide, by decide,
    by decide⟩

theorem witness_TheBlockSeesTheOutsideOnlyThroughItsInputs :
    ∃ s t : State, s.regs = t.regs ∧ s.params = t.params ∧ rst s = rst t ∧ s.irRx = t.irRx ∧ s.devIn = t.devIn ∧
      s.wdtCnt ≠ t.wdtCnt ∧ s.tape ≠ t.tape :=
  ⟨st 0x0C 3 1 0 0 false 1 0, { st 0x0C 3 1 0 0 false 1 0 with wdtCnt := 7, tape := [sm false 1 0, sm true 0 0] }, by decide,
    rfl, by decide, by decide, by decide, by decide, by decide⟩

theorem witness_Outputs :
    (st 0x0B 0 1 1 0 false 0 0).devDrv = .asserted ∧ (st 0x0B 0 1 1 0 false 0 0).devOe = .output ∧
    (st 0x12 0 0 0 1 false 0 0).devDrv = .deasserted ∧ (st 0x12 0 0 0 1 false 0 0).devOe = .input ∧
    (st 0x12 0 0 0 1 false 0 0).emit = .on ∧ (st 0x0B 0 1 1 0 false 0 0).emit = .off := by decide

theorem witness_SetLevel :
    RelayInv (st 0x0A 0 1 0 0 false 0 0).regs ∧ (st 0x0A 0 1 0 0 false 0 0).phase ∈ codes deviceWriteOps := by decide

theorem witness_EmitterIsAlwaysOut : ∃ s t : State, step s = .next t := ⟨st 0x10 0 0 0 0 false 0 0, _, rfl⟩

/-- The claim of a line whose stored drive is asserted, with two samples. -/
theorem witness_TheClaimExposesTheStaleDrive :
    ∃ s : State, s.phase = encode .i2dClaim ∧ restartFree 2 s = true ∧ s.devDrv = .asserted :=
  ⟨{ st 0x08 0 0 1 0 false 0 0 with tape := [sm false 0 0, sm false 0 0] }, by decide, by decide, by decide⟩

theorem witness_TheFinalAssert :
    ∃ s : State, s.phase = encode .i2dStop ∧ s.devOe = .output ∧ s.irRx = .high ∧ restartFree 2 s = true :=
  ⟨{ st 0x0E 0 1 0 0 false 0 0 with tape := [sm false 1 0, sm false 0 0] }, by decide, by decide, by decide, by decide⟩

/-- The state of an idle pass with three samples; a kick at its third step. -/
def idle : State := { st 0x00 0 0 1 0 false 0 0 with tape := [sm false 1 0, sm false 0 1, sm false 0 0] }

theorem witness_AnIdlePass :
    ∃ a b rest, idle.phase = encode .dspIr ∧ idle.tape = a :: b :: rest ∧ a.irRx = .high ∧ b.devIn = .high ∧
      restartFree 3 idle = true :=
  ⟨_, _, _, by decide, rfl, by decide, by decide, by decide⟩

theorem witness_APassVisitsItsPartsInOrder :
    ∃ (s t : State) (i j : Instr), s.phase = encode i ∧ t.phase = encode j ∧ rst s = false ∧ step s = .next t ∧
      passRank i < passRank j :=
  ⟨st 0x0F 0 1 1 0 false 0 0, _, .i2dRelease, .dspDev, by decide, rfl, by decide, rfl, by decide⟩

/-- A wait on each line that does not see its level for two steps. -/
theorem witness_AStalledWait :
    ∃ (s s' : State),
      (s.phase = encode .i2dStart ∧ opReads .i2dStart = some .irReceive ∧ opWants .i2dStart = some .low ∧ 2 ≤ s.tape.length ∧
        (∀ a ∈ s.tape.take 2, a.irRx ≠ .low) ∧ restartFree 2 s = true) ∧
      (s'.phase = encode .d2iStop ∧ opReads .d2iStop = some .deviceSignal ∧ opWants .d2iStop = some .high ∧
        2 ≤ s'.tape.length ∧ (∀ a ∈ s'.tape.take 2, a.devIn ≠ .high) ∧ restartFree 2 s' = true) :=
  ⟨{ st 0x0B 0 1 1 0 false 0 0 with tape := [sm false 1 0, sm false 1 1] },
    { st 0x16 0 0 0 1 false 0 0 with tape := [sm false 1 0, sm false 0 0] }, by decide, by decide⟩

theorem witness_Runs : ∃ t, runSteps 2 idle = .next t ∧ quiet 2 idle = true := ⟨_, rfl, by decide⟩

theorem witness_TimerCounts :
    (∃ t, step (kickAt ⟨3, by decide⟩) = .next t ∧ rst (kickAt ⟨3, by decide⟩) = false) ∧
    (∃ t, step (kickAt ⟨2, by decide⟩) = .next t ∧ rst (kickAt ⟨2, by decide⟩) = true) ∧
    (∃ t, step idle = .next t ∧ rst idle = false ∧ idle.phase ≠ 0x02#5) :=
  ⟨⟨_, rfl, by decide⟩, ⟨_, rfl, by decide⟩, ⟨_, rfl, by decide, by decide⟩⟩

/-- The waits of one exchange on both lines at once, each with `k` stalls before its level. -/
def waits (k : Nat) : Nat → Level → List WaitInput
  | 0, _ => []
  | n + 1, w => ⟨List.replicate k ⟨false, w.flip, w.flip⟩, ⟨false, w, w⟩⟩ :: waits k n w.flip

/-- An `ir2device` about to claim, with an exchange on its tape whose waits stall `k` times each. -/
def claiming (k : Nat) : State :=
  { st 0x08 0 0 0 0 false 0 0 with
    tape := sm false 0 0 :: sm false 0 0 :: (samplesOf (waits k 35 .high) ++ [sm false 1 1]) }

/-- The premises of `Ir2DeviceReplaysTheWholeExchange`, at the shortest timing and with a stall at every wait. -/
theorem witness_Ir2DeviceReplays (k : Nat) (hk : k = 0 ∨ k = 1) :
    (claiming k).phase = encode .i2dClaim ∧ exchangeOn Sample.irRx (waits k 35 .high) ∧
    (claiming k).tape = sm false 0 0 :: sm false 0 0 :: (samplesOf (waits k 35 .high) ++ sm false 1 1 :: []) ∧
    noPowerCycle (sm false 0 0 :: sm false 0 0 :: (samplesOf (waits k 35 .high) ++ [sm false 1 1])) = true ∧
    (claiming k).wdtCnt + (samplesOf (waits k 35 .high)).length + 2 < (claiming k).params.wdtTimeout.val := by
  obtain rfl | rfl := hk <;> exact ⟨by decide, ⟨by decide, by decide⟩, rfl, by decide, by decide⟩

/-- A `device2ir` about to turn the emitter on, with an exchange and an echo on its tape. -/
def emitting (k : Nat) (echo : List Sample) : State :=
  { st 0x10 0 0 1 0 false 0 0 with
    tape := sm false 0 0 :: (samplesOf (waits k 35 .high) ++ (echo ++ sm false 1 1 :: [])) }

/-- The premises of `Device2IrReplaysTheWholeExchange`: without and with stalls, without an echo and with one. -/
theorem witness_Device2IrReplays (k : Nat) (hk : k = 0 ∨ k = 1) (echo : List Sample)
    (he : echo = [] ∨ echo = [sm false 0 1, sm false 0 1]) :
    (emitting k echo).phase = encode .d2iOn ∧ exchangeOn Sample.devIn (waits k 35 .high) ∧
    (∀ a ∈ echo, a.irRx = .low) ∧ (sm false 1 1).irRx = .high ∧
    (emitting k echo).tape = sm false 0 0 :: (samplesOf (waits k 35 .high) ++ (echo ++ sm false 1 1 :: [])) ∧
    noPowerCycle (sm false 0 0 :: (samplesOf (waits k 35 .high) ++ (echo ++ [sm false 1 1]))) = true ∧
    (emitting k echo).wdtCnt + (samplesOf (waits k 35 .high)).length + echo.length + 1 <
      (emitting k echo).params.wdtTimeout.val := by
  obtain rfl | rfl := hk <;> obtain rfl | rfl := he <;>
    exact ⟨by decide, ⟨by decide, by decide⟩, by decide, by decide, rfl, by decide, by decide⟩

/-- The dispatch check that starts `claiming 0`, and the samples up to the kick of the same pass. -/
def checking : State :=
  { claiming 0 with phase := encode .dspIr, tape := sm false 0 0 :: ((claiming 0).tape ++ [sm false 1 1]) }

/-- Restart-free runs through each relay (`NoRelayRunIsShorterThanItsEdges`), each at its bound. -/
theorem witness_NoRelayRunIsShorter :
    (restartFree 38 (claiming 0) = true ∧ (claiming 0).phase = encode .i2dClaim ∧
      (nextRegs (runSteps 38 (claiming 0))).map Regs.phase = some (encode .dspDev)) ∧
    (restartFree 37 (emitting 0 []) = true ∧ (emitting 0 []).phase = encode .d2iOn ∧
      (nextRegs (runSteps 37 (emitting 0 []))).map Regs.phase = some (encode .dspKick)) ∧
    (restartFree 40 checking = true ∧ checking.phase = encode .dspIr ∧ readLevel .irReceive checking = .low ∧
      (nextRegs (runSteps 40 checking)).map Regs.phase = some (encode .dspKick)) :=
  ⟨⟨by decide, by decide, by decide⟩, ⟨by decide, by decide, by decide⟩, ⟨by decide, by decide, by decide, by decide⟩⟩

/-- Two claims with the same inputs, one with a stale drive (`ARelayRunRepeatsItselfOnTheSameInputs`). -/
theorem witness_ARelayRunRepeatsItself :
    ∃ s s' t t' : State, RelayInv s.regs ∧ RelayInv s'.regs ∧ s.phase = s'.phase ∧ s.phase = encode .i2dClaim ∧
      s.devDrv ≠ s'.devDrv ∧ 2 ≤ s.tape.length ∧ s.tape.take 2 = s'.tape.take 2 ∧ restartFree 2 s = true ∧
      restartFree 2 s' = true ∧ runSteps 2 s = .next t ∧ runSteps 2 s' = .next t' :=
  ⟨{ st 0x08 0 0 1 0 false 0 0 with tape := [sm false 0 0, sm false 0 0] },
    { st 0x08 0 0 0 0 false 0 0 with tape := [sm false 0 0, sm false 0 0] }, _, _,
    by decide, by decide, by decide, by decide, by decide, by decide, by decide, by decide, by decide, rfl, rfl⟩

end Sys2Proof.Tests
end

/-! ## One step of each class of operation, and the hardwired directions -/

namespace Sys2Proof.Machine

/-- The converse of the second case of `step_cases`: without `rst`, a step from the code of `i` performs `i`. -/
theorem step_of_exec {s u : State} {i : Instr} (hp : s.phase = encode i) (hr : rst s = false)
    (he : exec i s = .next u) : step s = .next (tick s u) := by
  simp [step, cycle, blockStep, perform, hr, hp, he]

@[simp] theorem countPulse_phase (again done : Instr) (s : State) :
    (countPulse again done s).phase = encode (if s.cnt = 15#4 then done else again) := by
  obtain ⟨h, e⟩ | ⟨h, e⟩ := countPulse_cases again done s <;> simp [e, h]

theorem checkLine_phase (l : Line) (relay other : Instr) (s : State) :
    (checkLine l relay other s).phase = encode (if readLevel l s = .low then relay else other) := by
  obtain ⟨h, e⟩ | ⟨h, e⟩ := checkLine_cases l relay other s <;> simp [e, h]

/-- No operation of R42 is its own successor, so only a stay keeps `phase`. -/
theorem opNext_ne (i : Instr) (read : Level) (last : Bool) : opNext i read last ≠ i := by
  cases i <;> cases read <;> cases last <;> decide

theorem phase_ne_of_opNext {s t : State} {i : Instr} {read : Level} {last : Bool} (hp : s.phase = encode i)
    (ht : t.phase = encode (opNext i read last)) : t.phase ≠ s.phase := by
  rw [hp, ht]
  exact fun h => opNext_ne i read last (encode_injective h)

/-- R13, unconditional operations: the one successor, whatever the lines read. -/
theorem exec_of_unconditional {i : Instr} (hc : opClass i = .unconditional) (s : State) :
    ∃ u, exec i s = .next u ∧ u.phase = encode (opNext i .low false) := by
  cases i <;> cases hc <;> exact ⟨_, rfl, rfl⟩

/-- R13, checks: the successor of the level read. -/
theorem exec_of_check {i : Instr} (hc : opClass i = .check) (s : State) :
    ∃ l u, opReads i = some l ∧ exec i s = .next u ∧ u.phase = encode (opNext i (readLevel l s) false) := by
  cases i <;> cases hc <;> exact ⟨_, _, rfl, rfl, checkLine_phase ..⟩

/-- R13, edge waits: each is a `WaitLevel` on its line for its level, whose completion goes to the row's successor. -/
theorem exec_of_edgeWait {i : Instr} (hc : opClass i = .edgeWait) (s : State) :
    ∃ l w done, opReads i = some l ∧ opWants i = some w ∧ exec i s = .next (waitLevel l w done s) ∧
      (done s).phase = encode (opNext i w (decide (s.cnt = 15#4))) := by
  by_cases h : s.cnt = 15#4 <;> cases i <;> cases hc <;> exact ⟨_, _, _, rfl, rfl, rfl, by simp [opNext, h]⟩

@[simp] theorem direction_irEmit (s : State) : direction .irEmit s = .output := rfl
@[simp] theorem direction_irReceive (s : State) : direction .irReceive s = .input := rfl

/-- Settles O29, by the class of the operation: one lemma per class says how `exec` moves `phase`, and no operation is its
own successor. -/
theorem eachClassAdvancesPhaseItsWay : Obligations.EachClassAdvancesPhaseItsWay := by
  intro s i hp hr
  cases hc : opClass i with
  | unconditional =>
    obtain ⟨u, he, hu⟩ := exec_of_unconditional hc s
    exact ⟨tick s u, step_of_exec hp hr he, fun _ => ⟨hu, phase_ne_of_opNext hp hu⟩, nofun, nofun⟩
  | check =>
    obtain ⟨l, u, hl, he, hu⟩ := exec_of_check hc s
    exact ⟨tick s u, step_of_exec hp hr he, nofun, fun _ => ⟨l, hl, hu, phase_ne_of_opNext hp hu⟩, nofun⟩
  | edgeWait =>
    obtain ⟨l, w, done, hl, hw, he, hd⟩ := exec_of_edgeWait hc s
    refine ⟨_, step_of_exec hp hr he, nofun, nofun, fun _ => ⟨l, w, hl, hw, fun h => ?_, fun h => ?_⟩⟩
    · have ht : (waitLevel l w done s).phase = encode (opNext i w (decide (s.cnt = 15#4))) := by
        rw [waitLevel_done h, hd]
      exact ⟨ht, phase_ne_of_opNext hp ht⟩
    · rw [tick_regs, waitLevel_stay h]

/-- Settles O38: the directions of these two lines are no register, so no step can change them (R18). -/
theorem emitterIsAlwaysOutAndReceiverAlwaysIn : Obligations.EmitterIsAlwaysOutAndReceiverAlwaysIn :=
  fun s t _ => ⟨direction_irEmit s, direction_irEmit t, direction_irReceive s, direction_irReceive t⟩

end Sys2Proof.Machine

/-! ## What the block drives on DEVICE_SIGNAL in each direction -/

namespace Sys2Proof.Machine

/-- R41: while the line is an output, the pad shows the level of the stored drive. -/
theorem devicePad_of_output {s : State} (h : s.devOe = .output) :
    devicePad s = some (driveLevel s.params s.devDrv) := by
  simp [devicePad, devOutPad, h]

/-- R41: while the line is an input, the block drives nothing on it. -/
theorem devicePad_of_input {s : State} (h : s.devOe = .input) : devicePad s = none := by
  simp [devicePad, h]

/-- Settles O36: `SetDirection` writes `dev_oe` alone, and the pad follows the new direction with the stored drive (R31). -/
theorem setDirectionShowsOrHidesTheStoredDrive : Obligations.SetDirectionShowsOrHidesTheStoredDrive := by
  intro s
  have houtput : devicePad (setDirection .output s) = some (driveLevel s.params s.devDrv) :=
    devicePad_of_output (setDirection_devOe .output s)
  have hinput : devicePad (setDirection .input s) = none :=
    devicePad_of_input (setDirection_devOe .input s)
  exact ⟨rfl, houtput, rfl, hinput, setDirection_devDrv .input s⟩

end Sys2Proof.Machine

/-! ## The operations of the dispatch loop -/

namespace Sys2Proof.Machine

/-- A check whose line reads low goes to its relay. -/
theorem checkLine_of_low {l : Line} {relay other : Instr} {s : State} (h : readLevel l s = .low) :
    checkLine l relay other s = goto relay s := by
  simpa [h] using checkLine_cases l relay other s

/-- A check whose line reads high goes on to the other operation. -/
theorem checkLine_of_high {l : Line} {relay other : Instr} {s : State} (h : readLevel l s = .high) :
    checkLine l relay other s = goto other s := by
  simpa [h] using checkLine_cases l relay other s

/-- R52: `DSP_IR` is the check of IR_RECEIVE, before `ir2device` or the second check. -/
theorem exec_dspIr (s : State) : exec .dspIr s = .next (checkLine .irReceive .i2dClaim .dspDev s) := rfl

/-- R53: `DSP_DEV` is the check of DEVICE_SIGNAL, before `device2ir` or the kick. -/
theorem exec_dspDev (s : State) : exec .dspDev s = .next (checkLine .deviceSignal .d2iOn .dspKick s) := rfl

/-- R54: `DSP_KICK` only goes back to the first check. -/
theorem exec_dspKick (s : State) : exec .dspKick s = .next (goto .dspIr s) := rfl

/-- Settles O1: each operation is a check of its one line (R52, R53), and a check goes to one of two operations by the
level read, writing `phase` alone. -/
theorem checksBranchOnTheLevelOfTheirLine : Obligations.ChecksBranchOnTheLevelOfTheirLine := by
  intro s
  exact
    ⟨fun h => (exec_dspIr s).trans (congrArg _ (checkLine_of_low h)),
      fun h => (exec_dspIr s).trans (congrArg _ (checkLine_of_high h)),
      fun h => (exec_dspDev s).trans (congrArg _ (checkLine_of_low h)),
      fun h => (exec_dspDev s).trans (congrArg _ (checkLine_of_high h))⟩

/-- Settles O2: the successor is the only write of `DSP_KICK`, and the output `wdt_kick` compares `phase` with its code
(R54). -/
theorem kickReturnsToTheFirstCheck : Obligations.KickReturnsToTheFirstCheck :=
  fun s => ⟨exec_dspKick s, wdtKick_eq_true_iff s⟩

end Sys2Proof.Machine

/-! ## The operations of `ir2device` -/

namespace Sys2Proof.Machine

/-- An operation that is a `WaitLevel` (R32) completes at a step at which its line reads the wanted level. -/
theorem exec_wait_done {i : Instr} {l : Line} {w : Level} {done : State → State} {s : State}
    (he : exec i s = .next (waitLevel l w done s)) (h : readLevel l s = w) : exec i s = .next (done s) := by
  rw [he, waitLevel_done h]

/-- An operation that is a `WaitLevel` (R32) leaves the state as it is while its line reads the other level. -/
theorem exec_wait_stay {i : Instr} {l : Line} {w : Level} {done : State → State} {s : State}
    (he : exec i s = .next (waitLevel l w done s)) (h : readLevel l s ≠ w) : exec i s = .next s := by
  rw [he, waitLevel_stay h]

/-- R56: `I2D_CLAIM` makes the line an output. -/
theorem exec_i2dClaim (s : State) : exec .i2dClaim s = .next (goto .i2dInit (setDirection .output s)) := rfl

/-- R57: `I2D_INIT` drives the idle level. -/
theorem exec_i2dInit (s : State) :
    exec .i2dInit s = .next (goto .i2dReset (setLevel (.deviceSignal .deasserted) s)) := rfl

/-- R63: `I2D_RELEASE` makes the line an input again. -/
theorem exec_i2dRelease (s : State) : exec .i2dRelease s = .next (goto .dspDev (setDirection .input s)) := rfl

/-- R58: `I2D_RESET` waits for the rising edge and asserts. -/
theorem exec_i2dReset (s : State) : exec .i2dReset s = .next (waitLevel .irReceive .high
    (fun s => goto .i2dStart (setLevel (.deviceSignal .asserted) s)) s) := rfl

/-- R59: `I2D_START` waits for the falling edge, deasserts and clears the counter. -/
theorem exec_i2dStart (s : State) : exec .i2dStart s = .next (waitLevel .irReceive .low
    (fun s => goto .i2dDataR (clearCnt (setLevel (.deviceSignal .deasserted) s))) s) := rfl

/-- R60: `I2D_DATA_R` waits for the rising edge and asserts. -/
theorem exec_i2dDataR (s : State) : exec .i2dDataR s = .next (waitLevel .irReceive .high
    (fun s => goto .i2dDataF (setLevel (.deviceSignal .asserted) s)) s) := rfl

/-- R61: `I2D_DATA_F` waits for the falling edge, deasserts and counts the pulse. -/
theorem exec_i2dDataF (s : State) : exec .i2dDataF s = .next (waitLevel .irReceive .low
    (fun s => countPulse .i2dDataR .i2dStop (setLevel (.deviceSignal .deasserted) s)) s) := rfl

/-- R62: `I2D_STOP` waits for the rising edge and asserts. -/
theorem exec_i2dStop (s : State) : exec .i2dStop s = .next (waitLevel .irReceive .high
    (fun s => goto .i2dRelease (setLevel (.deviceSignal .asserted) s)) s) := rfl

/-- Settles O3: each of the three is one register write and a `goto` (R56, R57, R63). -/
theorem claimInitReleaseWriteOneRegisterEach : Obligations.ClaimInitReleaseWriteOneRegisterEach :=
  fun s => ⟨exec_i2dClaim s, exec_i2dInit s, exec_i2dRelease s⟩

/-- Settles O4: each of the three is a `WaitLevel` for 1 on IR_RECEIVE (R58, R60, R62), done on that level and staying on
the other. -/
theorem risingWaitsAssertTheDeviceLine : Obligations.RisingWaitsAssertTheDeviceLine := by
  refine fun s => ⟨fun h => ?_, fun h => ?_⟩
  · exact ⟨exec_wait_done (exec_i2dReset s) h, exec_wait_done (exec_i2dDataR s) h, exec_wait_done (exec_i2dStop s) h⟩
  · have hne := level_ne_high_iff.2 h
    exact ⟨exec_wait_stay (exec_i2dReset s) hne, exec_wait_stay (exec_i2dDataR s) hne,
      exec_wait_stay (exec_i2dStop s) hne⟩

/-- Settles O5: the wait for 0 on IR_RECEIVE completes with the drive and the counter written whatever they held (R59). -/
theorem startEdgeDeassertsAndClearsTheCount : Obligations.StartEdgeDeassertsAndClearsTheCount :=
  fun s => ⟨exec_wait_done (exec_i2dStart s), fun h => exec_wait_stay (exec_i2dStart s) (level_ne_low_iff.2 h)⟩

/-- Settles O6: the wait completes with `countPulse` after the drive is written; the increment is made below 15 only, so
it does not overflow (R61). -/
theorem dataFallingEdgeCountsTheReceivedPulse : Obligations.DataFallingEdgeCountsTheReceivedPulse := by
  refine fun s => ⟨fun h => ?_, fun h => exec_wait_stay (exec_i2dDataF s) (level_ne_low_iff.2 h)⟩
  have hdone := exec_wait_done (exec_i2dDataF s) h
  refine ⟨fun hlast => ?_, fun hmore => ⟨s.cnt + 1#4, count_succ_toNat hmore, ?_⟩⟩
  · exact hdone.trans (congrArg _ (countPulse_last hlast))
  · exact hdone.trans (congrArg _ (countPulse_more hmore))

end Sys2Proof.Machine

/-! ## The operations of `device2ir` -/

namespace Sys2Proof.Machine

/-- R65: `D2I_ON` turns the emitter on. -/
theorem exec_d2iOn (s : State) : exec .d2iOn s = .next (goto .d2iReset (setLevel (.irEmit .on) s)) := rfl

/-- R66: `D2I_RESET` waits for the rising edge and turns the emitter off. -/
theorem exec_d2iReset (s : State) : exec .d2iReset s = .next (waitLevel .deviceSignal .high
    (fun s => goto .d2iStart (setLevel (.irEmit .off) s)) s) := rfl

/-- R67: `D2I_START` waits for the falling edge, turns the emitter on and clears the counter. -/
theorem exec_d2iStart (s : State) : exec .d2iStart s = .next (waitLevel .deviceSignal .low
    (fun s => goto .d2iDataR (clearCnt (setLevel (.irEmit .on) s))) s) := rfl

/-- R68: `D2I_DATA_R` waits for the rising edge and turns the emitter off. -/
theorem exec_d2iDataR (s : State) : exec .d2iDataR s = .next (waitLevel .deviceSignal .high
    (fun s => goto .d2iDataF (setLevel (.irEmit .off) s)) s) := rfl

/-- R69: `D2I_DATA_F` waits for the falling edge, turns the emitter on and counts the pulse. -/
theorem exec_d2iDataF (s : State) : exec .d2iDataF s = .next (waitLevel .deviceSignal .low
    (fun s => countPulse .d2iDataR .d2iStop (setLevel (.irEmit .on) s)) s) := rfl

/-- R70: `D2I_STOP` waits for the rising edge and turns the emitter off. -/
theorem exec_d2iStop (s : State) : exec .d2iStop s = .next (waitLevel .deviceSignal .high
    (fun s => goto .d2iGuard (setLevel (.irEmit .off) s)) s) := rfl

/-- Settles O7: `D2I_ON` is one write of `emit` and a `goto` (R65). -/
theorem emitterGoesOnAtTheStart : Obligations.EmitterGoesOnAtTheStart := exec_d2iOn

/-- Settles O8: each of the three is a `WaitLevel` for 1 on DEVICE_SIGNAL (R66, R68, R70), done on that level and staying
on the other. -/
theorem risingWaitsTurnTheEmitterOff : Obligations.RisingWaitsTurnTheEmitterOff := by
  refine fun s => ⟨fun hhigh => ?_, fun hlow => ?_⟩
  · exact ⟨exec_wait_done (exec_d2iReset s) hhigh, exec_wait_done (exec_d2iDataR s) hhigh,
      exec_wait_done (exec_d2iStop s) hhigh⟩
  · have hne := level_ne_high_iff.2 hlow
    exact ⟨exec_wait_stay (exec_d2iReset s) hne, exec_wait_stay (exec_d2iDataR s) hne,
      exec_wait_stay (exec_d2iStop s) hne⟩

/-- Settles O9: the wait for 0 on DEVICE_SIGNAL completes with the emitter and the counter written whatever they held
(R67). -/
theorem startEdgeTurnsTheEmitterOnAndClearsTheCount : Obligations.StartEdgeTurnsTheEmitterOnAndClearsTheCount :=
  fun s => ⟨exec_wait_done (exec_d2iStart s), fun h => exec_wait_stay (exec_d2iStart s) (level_ne_low_iff.2 h)⟩

/-- Settles O10: the wait completes with `countPulse` after the emitter is turned on; the counter is stepped only where
it is not 15, so it does not overflow (R69). -/
theorem dataFallingEdgeCountsTheSentPulse : Obligations.DataFallingEdgeCountsTheSentPulse := by
  refine fun s => ⟨fun hlow => ?_, fun hhigh => exec_wait_stay (exec_d2iDataF s) (level_ne_low_iff.2 hhigh)⟩
  have hcount : exec .d2iDataF s = .next (countPulse .d2iDataR .d2iStop (setLevel (.irEmit .on) s)) :=
    exec_wait_done (exec_d2iDataF s) hlow
  exact
    ⟨fun hlast => hcount.trans (congrArg _ (countPulse_last hlast)),
      fun hmore => ⟨s.cnt + 1#4, count_succ_toNat hmore, hcount.trans (congrArg _ (countPulse_more hmore))⟩⟩

end Sys2Proof.Machine

/-! ## The exceptional event `Restart` -/

namespace Sys2Proof.Machine

/-- The converse of the first case of `step_cases`: `rst` pre-empts the operation, whatever code `phase` holds (R74,
R78 (a)). -/
theorem step_of_rst {s : State} (hr : rst s = true) : step s = .next (tick s (restart s)) := by
  simp [step, cycle, blockStep, hr]

/-- A step with `rst` answers no other state than the restarted one. -/
theorem eq_of_step_of_rst {s t : State} (hr : rst s = true) (h : step s = .next t) : t = tick s (restart s) := by
  rw [step_of_rst hr] at h
  exact (Host.Outcome.next.inj h).symm

/-- R20: the outputs depend on the registers and the parameters alone. -/
theorem outputs_congr {s t : State} (hregs : s.regs = t.regs) (hparams : s.params = t.params) :
    outputs s = outputs t := by
  obtain ⟨hphase, -, hoe, hdrv, hemit⟩ := Regs.mk.inj hregs
  simp [outputs, wdtKick, devOePad, devOutPad, irEmitPad, hphase, hoe, hdrv, hemit, hparams]

/-- R25: the registers after a `Restart` are a function of the parameters alone. -/
theorem restart_regs_congr {s s' : State} (hparams : s.params = s'.params) :
    (restart s).regs = (restart s').regs := by
  rw [restart_regs s [], restart_regs s' [], hparams]

/-- Settles O12: the step is `restart` and then the end of the step, which writes no register and no parameter (R80). -/
theorem restartWritesEveryRegisterInOneStep : Obligations.RestartWritesEveryRegisterInOneStep :=
  fun s hr =>
    ⟨tick s (restart s), step_of_rst hr, restart_regs s [], restart_phase s, restart_devOe s, restart_emit s,
      restart_params s⟩

/-- Settles O13: both steps are a `restart`, which takes its registers from the parameters alone, and the outputs depend
on nothing else (R75). -/
theorem restartLeavesNoTraceOfItsCause : Obligations.RestartLeavesNoTraceOfItsCause := by
  intro s s' t t' hparams hr hr' ht ht'
  obtain rfl := eq_of_step_of_rst hr ht
  obtain rfl := eq_of_step_of_rst hr' ht'
  have hregs : (tick s (restart s)).regs = (tick s' (restart s')).regs := restart_regs_congr hparams
  exact ⟨hregs, outputs_congr hregs hparams⟩

end Sys2Proof.Machine

/-! ## Words, codes and the reset state -/

namespace Sys2Proof

/-- The five bits that the decoder reads of a word do not depend on the width, which is at least five. -/
theorem tableCode_eq {nbits : Nat} (h : 5 ≤ nbits) (w : Nat) : tableCode nbits w = BitVec.ofNat 5 w := by
  have hmod : w % 2 ^ nbits % 2 ^ 5 = w % 2 ^ 5 := Nat.mod_mod_of_dvd w (pow_dvd_pow 2 h)
  exact BitVec.eq_of_toNat_eq (by simpa [tableCode] using hmod)

theorem decode_eq_ok_iff {c : PhaseCode} {i : Instr} : decode c = .ok i ↔ c = encode i :=
  ⟨fun h => (encode_of_decode_ok h).symm, fun h => h ▸ decode_encode i⟩

theorem decodeTableWord_eq_some_iff {nbits w : Nat} {i : Instr} :
    decodeTableWord nbits w = some i ↔ tableCode nbits w = encode i := by
  rw [← decode_eq_ok_iff, decodeTableWord]
  cases decode (tableCode nbits w) <;> simp

theorem decodeTableWord_eq_none_iff {nbits w : Nat} :
    decodeTableWord nbits w = none ↔ WellFormed.legalPhase (tableCode nbits w) = false := by
  cases hd : decode (tableCode nbits w) with
  | ok i => simp [decodeTableWord, decode_eq_ok_iff.1 hd]
  | error e => simp [decodeTableWord, hd, decode_error_reserved hd]

/-- Settles O18: the decoder reads the five low bits whatever the width, and on five bits `decode` and `encode` are
inverse to each other outside the reserved codes (R42, R47). -/
theorem tableWordsDecodeExactlyToTheirCodes : Obligations.TableWordsDecodeExactlyToTheirCodes := by
  intro nbits w h
  rw [← tableCode_eq h w]
  exact ⟨fun i => decodeTableWord_eq_some_iff, decodeTableWord_eq_none_iff⟩

/-- Settles O19: eight written words of R42 and R47, decoded by evaluation. -/
theorem wordsOfEachFamilyDecode : Obligations.WordsOfEachFamilyDecode := by
  unfold Obligations.WordsOfEachFamilyDecode
  decide

/-- An identifier names a line with that identifier exactly when it is not the reserved one (R44). -/
theorem exists_line_iff_legalLineCode (c : BitVec 2) :
    (∃ l : Line, Line.ofCode c = some l ∧ l.code = c) ↔ WellFormed.legalLineCode c = true := by
  constructor
  · rintro ⟨l, -, rfl⟩
    cases l <;> rfl
  · revert c
    have named : ∀ c : BitVec 2, WellFormed.legalLineCode c = true →
        c = Line.irEmit.code ∨ c = Line.irReceive.code ∨ c = Line.deviceSignal.code := by decide
    intro c hc
    obtain rfl | rfl | rfl := named c hc <;> exact ⟨_, line_ofCode_code _, rfl⟩

/-- Settles O20: the identifiers of lines read back unless reserved (R44), and each of the two bits through each
value type (R45). -/
theorem lineAndValueCodesReadBack : Obligations.LineAndValueCodesReadBack :=
  ⟨exists_line_iff_legalLineCode, rfl, rfl, rfl, by decide, rfl, rfl, rfl, rfl⟩

/-- Settles O21: the fields of `State.reset` and their port bits, by evaluation (R25, R85). -/
theorem resetStateHoldsTheSpecsResetValues : Obligations.ResetStateHoldsTheSpecsResetValues :=
  ⟨rfl, rfl, rfl⟩

end Sys2Proof

/-! ## The operations as rows of the operation table, on the registers alone -/

namespace Sys2Proof.Safety

open Sys2Proof.Machine

/-- The registers after the row of `i` is completed from `r` on the level `read` (R42). -/
def rowDone (i : Instr) (read : Level) (r : Regs) : Regs :=
  { phase := encode (opNext i read (decide (r.cnt = 15#4)))
    cnt :=
      if (opWrites i).cntClear then 0#4
      else if (opWrites i).cntStep then (if r.cnt = 15#4 then 0#4 else r.cnt + 1#4)
      else r.cnt
    devOe := (opWrites i).devOe.getD r.devOe
    devDrv := (opWrites i).devDrv.getD r.devDrv
    emit := (opWrites i).emit.getD r.emit }

/-- An edge wait on a line that reads the other level than the wanted one. -/
abbrev Stalls (i : Instr) (read : Level) : Prop := opClass i = .edgeWait ∧ opWants i ≠ some read

/-- The registers after one performance of `i` from `r` on the level `read`: `tableRegs` without the state around. -/
def tableRow (i : Instr) (read : Level) (r : Regs) : Regs :=
  if Stalls i read then r else rowDone i read r

/-- The level that `i` finds in a sample on the line it reads, if it reads one (R28). -/
def readIn (i : Instr) (a : Sample) : Level :=
  match opReads i with
  | some .irReceive => a.irRx
  | some .deviceSignal => a.devIn
  | _ => .low

theorem tableRegs_eq_tableRow (i : Instr) (s : State) :
    tableRegs i s = tableRow i (readIn i s.sample) s.regs := by
  cases i <;> rfl

theorem tableRow_of_stalls {i : Instr} {read : Level} (h : Stalls i read) (r : Regs) : tableRow i read r = r :=
  if_pos h

theorem tableRow_of_not_stalls {i : Instr} {read : Level} (h : ¬Stalls i read) (r : Regs) :
    tableRow i read r = rowDone i read r :=
  if_neg h

/-- R13, R32: a row is completed, or it is an edge wait that leaves every register as it is. -/
theorem tableRow_cases (i : Instr) (read : Level) (r : Regs) :
    (Stalls i read ∧ tableRow i read r = r) ∨ (¬Stalls i read ∧ tableRow i read r = rowDone i read r) := by
  by_cases h : Stalls i read
  · exact .inl ⟨h, tableRow_of_stalls h r⟩
  · exact .inr ⟨h, tableRow_of_not_stalls h r⟩

/-- `s` with other registers. -/
def withRegs (s : State) (r : Regs) : State :=
  { s with phase := r.phase, cnt := r.cnt, devOe := r.devOe, devDrv := r.devDrv, emit := r.emit }

@[simp] theorem withRegs_regs (s : State) (r : Regs) : (withRegs s r).regs = r := rfl

/-- A state with the registers `r` that agrees with `s` outside them. -/
theorem eq_withRegs {s u : State} {r : Regs} (hr : u.regs = r)
    (ho : u.wdtCnt = s.wdtCnt ∧ u.params = s.params ∧ u.tape = s.tape ∧ u.stepNo = s.stepNo) : u = withRegs s r := by
  obtain ⟨hwdt, hparams, htape, hno⟩ := ho
  subst hr
  simp [withRegs, ← hwdt, ← hparams, ← htape, ← hno]

/-- R52, R53: the registers after a check. -/
theorem checkLine_regs (l : Line) (relay other : Instr) (s : State) :
    (checkLine l relay other s).regs =
      { s.regs with phase := encode (if readLevel l s = .low then relay else other) } := by
  obtain ⟨h, e⟩ | ⟨h, e⟩ := checkLine_cases l relay other s <;> simp [e, h, State.regs]

/-- R52, R53: what a check does is its row on the level read. -/
theorem exec_check_regs {i : Instr} (hc : opClass i = .check) (s : State) :
    ∃ u, exec i s = .next u ∧ u.regs = rowDone i (readIn i s.sample) s.regs := by
  cases i <;> cases hc <;> exact ⟨_, rfl, checkLine_regs ..⟩

/-- R61, R69: the registers after a data pulse. -/
theorem countPulse_regs (again done : Instr) (s : State) :
    (countPulse again done s).regs =
      { s.regs with
        phase := encode (if decide (s.cnt = 15#4) = true then done else again)
        cnt := if s.cnt = 15#4 then 0#4 else s.cnt + 1#4 } := by
  obtain ⟨h, e⟩ | ⟨h, e⟩ := countPulse_cases again done s <;> simp [e, h, State.regs]

/-- R32: what the completion of an edge wait does is its row on the wanted level. -/
theorem exec_edgeWait_regs {i : Instr} (hc : opClass i = .edgeWait) (s : State) :
    ∃ l w done, opReads i = some l ∧ readLevel l s = readIn i s.sample ∧ opWants i = some w ∧
      exec i s = .next (waitLevel l w done s) ∧ (done s).regs = rowDone i w s.regs := by
  cases i <;> cases hc <;> refine ⟨_, _, _, rfl, rfl, rfl, rfl, ?_⟩
  case i2dDataF => exact countPulse_regs ..
  case d2iDataF => exact countPulse_regs ..
  all_goals rfl

/-- Every operation answers a state with the registers of its row, by the class of the operation. -/
theorem exec_regs (i : Instr) (s : State) :
    ∃ u, exec i s = .next u ∧ u.regs = tableRow i (readIn i s.sample) s.regs := by
  cases hc : opClass i with
  | unconditional =>
    rw [tableRow_of_not_stalls (by simp [Stalls, hc])]
    cases i <;> cases hc <;> exact ⟨_, rfl, rfl⟩
  | check =>
    rw [tableRow_of_not_stalls (by simp [Stalls, hc])]
    exact exec_check_regs hc s
  | edgeWait =>
    obtain ⟨l, w, done, -, hl, hw, he, hd⟩ := exec_edgeWait_regs hc s
    refine ⟨_, he, ?_⟩
    obtain ⟨h, e⟩ | ⟨h, e⟩ := waitLevel_cases l w done s <;> rw [e, ← hl]
    · rw [h, hd, tableRow_of_not_stalls (by simp [Stalls, hw])]
    · rw [tableRow_of_stalls ⟨hc, by simpa [hw] using Ne.symm h⟩]

/-- The whole effect of an operation: the registers of its row, and nothing outside the registers. -/
theorem exec_eq (i : Instr) (s : State) :
    exec i s = .next (withRegs s (tableRow i (readIn i s.sample) s.regs)) := by
  obtain ⟨u, he, hu⟩ := exec_regs i s
  rw [he, ← eq_withRegs hu (exec_keeps_surroundings he)]

/-- Settles O26: the registers are those of the row, class by class (`exec_regs`), and no operation writes anything
else. -/
theorem operationsFollowTheOperationTable : Obligations.OperationsFollowTheOperationTable := by
  intro i s
  rw [tableRegs_eq_tableRow]
  exact exec_eq i s

end Sys2Proof.Safety

/-! ## One step as a function of the registers and the sample -/

namespace Sys2Proof.Safety

open Sys2Proof.Machine

/-- The registers after a step without `rst` from `r` on the sample `a`; a reserved code keeps them. -/
def stepRegs (r : Regs) (a : Sample) : Regs :=
  match decode r.phase with
  | .ok i => tableRow i (readIn i a) r
  | .error _ => r

theorem stepRegs_eq {r : Regs} {i : Instr} (hp : r.phase = encode i) (a : Sample) :
    stepRegs r a = tableRow i (readIn i a) r := by
  simp [stepRegs, hp]

/-- A sample reaches the registers by its two levels only. -/
theorem stepRegs_congr (r : Regs) {a b : Sample} (hir : a.irRx = b.irRx) (hdev : a.devIn = b.devIn) :
    stepRegs r a = stepRegs r b := by
  have hread (i : Instr) : readIn i a = readIn i b := by simp [readIn, hir, hdev]
  simp [stepRegs, hread]

theorem safeState_of_phase {s : State} {i : Instr} (hp : s.phase = encode i) : SafeState s := by
  simp [SafeState, hp]

theorem step_of_legal {s : State} (hs : SafeState s) (hr : rst s = false) :
    step s = .next (tick s (withRegs s (stepRegs s.regs s.sample))) := by
  obtain ⟨i, hp⟩ := exists_op_of_legal hs
  rw [stepRegs_eq (r := s.regs) hp]
  exact step_of_exec hp hr (exec_eq i s)

theorem step_of_reserved {s : State} (hs : WellFormed.legalPhase s.phase = false) (hr : rst s = false) :
    step s = .fault (.reservedPhase s.phase) := by
  cases hd : decode s.phase with
  | ok i => simp [decode_eq_ok_iff.1 hd] at hs
  | error e => simp [step, cycle, blockStep, perform, hr, hd]

/-- The three things a step can be: a `Restart`, an operation, or the stop at a reserved code. -/
theorem step_trichotomy (s : State) :
    (rst s = true ∧ step s = .next (tick s (restart s))) ∨
    (rst s = false ∧ SafeState s ∧ step s = .next (tick s (withRegs s (stepRegs s.regs s.sample)))) ∨
    (rst s = false ∧ WellFormed.legalPhase s.phase = false ∧ step s = .fault (.reservedPhase s.phase)) := by
  cases hr : rst s with
  | true => exact .inl ⟨rfl, step_of_rst hr⟩
  | false =>
    cases hs : WellFormed.legalPhase s.phase with
    | true => exact .inr (.inl ⟨rfl, hs, step_of_legal hs hr⟩)
    | false => exact .inr (.inr ⟨rfl, rfl, step_of_reserved hs hr⟩)

/-- A step without `rst` that answers a next state performed the row of the operation at `phase`. -/
theorem step_row {s t : State} (hr : rst s = false) (h : step s = .next t) :
    ∃ i, s.phase = encode i ∧ t.regs = tableRow i (readIn i s.sample) s.regs := by
  obtain ⟨hr', -⟩ | ⟨-, i, u, hp, he, rfl⟩ := step_cases h
  · simp [hr] at hr'
  · rw [exec_eq] at he
    cases he
    exact ⟨i, hp, rfl⟩

theorem regs_of_step {s t : State} (hr : rst s = false) (h : step s = .next t) :
    t.regs = stepRegs s.regs s.sample := by
  obtain ⟨i, hp, ht⟩ := step_row hr h
  rw [ht, stepRegs_eq (r := s.regs) hp]

theorem legalPhase_tableRow {i : Instr} {r : Regs} (hp : r.phase = encode i) (read : Level) :
    WellFormed.legalPhase (tableRow i read r).phase = true := by
  obtain ⟨-, e⟩ | ⟨-, e⟩ := tableRow_cases i read r <;> simp [e, rowDone, hp]

theorem legalPhase_stepRegs {r : Regs} (hr : WellFormed.legalPhase r.phase = true) (a : Sample) :
    WellFormed.legalPhase (stepRegs r a).phase = true := by
  obtain ⟨i, hp⟩ := exists_op_of_legal hr
  rw [stepRegs_eq hp]
  exact legalPhase_tableRow hp _

/-- Settles O15: of the three things a step can be, one is a stop, at a reserved code and naming it (R47). -/
theorem onlyReservedCodesStopTheMachine : Obligations.OnlyReservedCodesStopTheMachine := by
  intro s
  obtain ⟨hr, e⟩ | ⟨hr, hs, e⟩ | ⟨hr, hs, e⟩ := step_trichotomy s
  · simp [e, hr]
  · simp [e, hs]
  · simp [e, hr, hs]

/-- Settles O16: a step from a legal phase is a `Restart` or an operation, and each leaves a legal phase (R12). -/
theorem everyLegalStateHasALegalSuccessor : Obligations.EveryLegalStateHasALegalSuccessor := by
  intro s hs
  obtain ⟨-, e⟩ | ⟨-, -, e⟩ | ⟨-, hbad, -⟩ := step_trichotomy s
  · exact ⟨_, e, legalPhase_encode .dspIr⟩
  · exact ⟨_, e, legalPhase_stepRegs (r := s.regs) hs s.sample⟩
  · simp [SafeState, hbad] at hs

/-- Settles O17: a placed word is the code in `phase` and the step is no `Restart`, so the step performs that operation;
a placement keeps the two line samples. -/
theorem placedWordIsTheNextOperationRun : Obligations.PlacedWordIsTheNextOperationRun := by
  intro s t nbits w i _ hw he
  have hp : (s.withFetchWord nbits w).phase = encode i := decodeTableWord_eq_some_iff.1 hw
  exact ⟨⟨_, step_of_exec hp (rst_placeCode _ s) he, tick_regs _ t⟩, placeCode_irRx _ s, placeCode_devIn _ s⟩

/-- The registers after a step, as a function of the registers, the parameters, `rst` and the sample. -/
theorem nextRegs_step (s : State) :
    nextRegs (step s) =
      if rst s then some (State.resetWith s.params []).regs
      else if WellFormed.legalPhase s.phase then some (stepRegs s.regs s.sample)
      else none := by
  obtain ⟨hr, e⟩ | ⟨hr, hs, e⟩ | ⟨hr, hs, e⟩ := step_trichotomy s
  · simp [e, hr, nextRegs, restart_regs s []]
  · have hs : WellFormed.legalPhase s.phase = true := hs
    simp [e, hr, hs, nextRegs]
  · simp [e, hr, hs, nextRegs]

theorem nextRegs_step_congr {s t : State} (hregs : s.regs = t.regs) (hparams : s.params = t.params)
    (hrst : rst s = rst t) (hrow : stepRegs s.regs s.sample = stepRegs t.regs t.sample) :
    nextRegs (step s) = nextRegs (step t) := by
  have hphase : s.phase = t.phase := congrArg Regs.phase hregs
  rw [nextRegs_step, nextRegs_step, hparams, hrst, hphase, hrow]

/-- Settles O35: the registers after a step are a function of the registers, the parameters, `rst` and the two
levels. -/
theorem theBlockSeesTheOutsideOnlyThroughItsInputs : Obligations.TheBlockSeesTheOutsideOnlyThroughItsInputs :=
  fun s _ hregs hparams hrst hir hdev =>
    nextRegs_step_congr hregs hparams hrst (hregs ▸ stepRegs_congr s.regs hir hdev)

/-! ## The liveness timer over one step -/

theorem wdtNext_of_restart_or_kick {s : State} (h : rst s = true ∨ wdtKick s = true) : wdtNext s = 0 := by
  obtain h | h := h <;> simp [wdtNext, h]

theorem wdtNext_of_quiet {s : State} (hr : rst s = false) (hk : wdtKick s = false) : wdtNext s = s.wdtCnt + 1 := by
  simp [wdtNext, hr, hk]

theorem wdtKick_eq_false_iff (s : State) : wdtKick s = false ↔ s.phase ≠ encode .dspKick := by
  simp [wdtKick]

/-- Settles O14: the operation that `phase` decodes to, and then `tick`, whose timer is cleared by the kick. -/
theorem stepPerformsTheOperationThatPhaseSelects : Obligations.StepPerformsTheOperationThatPhaseSelects := by
  intro s t i hd hr he
  have hw : wdtNext s = if s.phase = 0x02#5 then 0 else s.wdtCnt + 1 := by
    split
    case isTrue hk => exact wdtNext_of_restart_or_kick (.inr ((wdtKick_eq_true_iff s).2 hk))
    case isFalse hk => exact wdtNext_of_quiet hr ((wdtKick_eq_false_iff s).2 hk)
  rw [step_of_exec (decode_eq_ok_iff.1 hd) hr he, tick, hw]

/-- Settles O45: `rst` is the disjunction of its two causes, and a step ends with the timer's next count (R79). -/
theorem timerCountsAndRequestsRestart : Obligations.TimerCountsAndRequestsRestart := by
  intro s t h
  obtain ⟨hwdt, -⟩ := step_around h
  refine ⟨rst_eq_true_iff s, fun hor => ?_, fun hr hk => ?_⟩
  · exact hwdt.trans (wdtNext_of_restart_or_kick (hor.imp id (wdtKick_eq_true_iff s).2))
  · exact hwdt.trans (wdtNext_of_quiet hr ((wdtKick_eq_false_iff s).2 hk))

end Sys2Proof.Safety

/-! ## The invariant of the reachable states, operation by operation -/

namespace Sys2Proof.Safety

open Sys2Proof.Machine

@[simp] theorem encode_mem_codes {i : Instr} {l : List Instr} : encode i ∈ codes l ↔ i ∈ l := by
  simp [codes]

/-- R24 (b) as a function: the direction of DEVICE_SIGNAL at the phase of an operation. -/
def directionAt (i : Instr) : Direction := if i ∈ claimedOps then .output else .input

/-- R24 (c) as a function: the emitter at the phase of an operation. -/
def emitterAt (i : Instr) : Emitter := if i ∈ emittingOps then .on else .off

/-- R24 at the phase of `i`, without the clauses that follow from these. -/
structure InvAt (i : Instr) (r : Regs) : Prop where
  direction : r.devOe = directionAt i
  emitter : r.emit = emitterAt i
  driveLow : i ∈ driveLowOps → r.devDrv = .deasserted
  driveHigh : i ∈ driveHighOps → r.devDrv = .asserted
  countIdle : i ∉ dataOps → r.cnt = 0#4

theorem directionAt_eq_output_iff {i : Instr} : directionAt i = .output ↔ i ∈ claimedOps := by
  simp [directionAt]

theorem emitterAt_eq_on_iff {i : Instr} : emitterAt i = .on ↔ i ∈ emittingOps := by
  simp [emitterAt]

theorem direction_eq_of_output_iff {d e : Direction} (h : d = .output ↔ e = .output) : d = e := by
  cases d <;> cases e <;> simp_all

theorem emitter_eq_of_on_iff {d e : Emitter} (h : d = .on ↔ e = .on) : d = e := by
  cases d <;> cases e <;> simp_all

/-- R24 (f) of the phases: none has the line claimed and the emitter on. -/
theorem not_mem_emittingOps_of_claimed {i : Instr} (h : i ∈ claimedOps) : i ∉ emittingOps := by
  revert h
  cases i <;> decide

/-- R24 (g) of the phases: DEVICE_SIGNAL is written only where it is claimed. -/
theorem deviceWriteOps_subset_claimedOps : deviceWriteOps ⊆ claimedOps := by
  decide

theorem relayInv_iff {i : Instr} {r : Regs} (hp : r.phase = encode i) : RelayInv r ↔ InvAt i r := by
  simp only [RelayInv, LegalPhase, ClaimedExactly, EmittingExactly, DriveByPhase, CountIdle, NeverBoth,
    DriveOnlyWhenOut, hp, encode_mem_codes]
  constructor
  · rintro ⟨-, hoe, hem, ⟨hlow, hhigh⟩, hcnt, -, -⟩
    exact ⟨direction_eq_of_output_iff (hoe.trans directionAt_eq_output_iff.symm),
      emitter_eq_of_on_iff (hem.trans emitterAt_eq_on_iff.symm), hlow, hhigh, hcnt⟩
  · rintro ⟨hoe, hem, hlow, hhigh, hcnt⟩
    rw [hoe, hem, directionAt_eq_output_iff, emitterAt_eq_on_iff]
    exact ⟨legalPhase_encode i, Iff.rfl, Iff.rfl, ⟨hlow, hhigh⟩, hcnt,
      fun h => not_mem_emittingOps_of_claimed h.1 h.2, fun h => deviceWriteOps_subset_claimedOps h⟩

/-! A completed row writes what the phase of its successor asks for. -/

theorem directionAt_opNext (i : Instr) (read : Level) (last : Bool) :
    (opWrites i).devOe.getD (directionAt i) = directionAt (opNext i read last) := by
  cases i <;> cases read <;> cases last <;> rfl

theorem emitterAt_opNext (i : Instr) (read : Level) (last : Bool) :
    (opWrites i).emit.getD (emitterAt i) = emitterAt (opNext i read last) := by
  cases i <;> cases read <;> cases last <;> rfl

theorem writes_deasserted_of_opNext {i : Instr} {read : Level} {last : Bool} (h : opNext i read last ∈ driveLowOps) :
    (opWrites i).devDrv = some .deasserted := by
  revert h
  cases i <;> cases read <;> cases last <;> decide

theorem writes_asserted_of_opNext {i : Instr} {read : Level} {last : Bool} (h : opNext i read last ∈ driveHighOps) :
    (opWrites i).devDrv = some .asserted := by
  revert h
  cases i <;> cases read <;> cases last <;> decide

/-- The count is left idle at the entry to a phase outside the data phases: the row cleared it, or counted the last
pulse, or is outside the data phases itself. -/
theorem count_of_opNext {i : Instr} {read : Level} {last : Bool} (h : opNext i read last ∉ dataOps) :
    (opWrites i).cntClear = true ∨ ((opWrites i).cntStep = true ∧ last = true) ∨
      ((opWrites i).cntStep = false ∧ i ∉ dataOps) := by
  revert h
  cases i <;> cases read <;> cases last <;> decide

theorem invAt_rowDone {i : Instr} {r : Regs} (read : Level) (h : InvAt i r) :
    InvAt (opNext i read (decide (r.cnt = 15#4))) (rowDone i read r) where
  direction := (congrArg _ h.direction).trans (directionAt_opNext i read _)
  emitter := (congrArg _ h.emitter).trans (emitterAt_opNext i read _)
  driveLow hnext := by simp [rowDone, writes_deasserted_of_opNext hnext]
  driveHigh hnext := by simp [rowDone, writes_asserted_of_opNext hnext]
  countIdle hnext := by
    obtain hclear | ⟨hstep, hlast⟩ | ⟨hkeep, hidle⟩ := count_of_opNext hnext
    · simp [rowDone, hclear]
    · simp [rowDone, hstep, of_decide_eq_true hlast]
    · simp [rowDone, hkeep, h.countIdle hidle]

/-- R24 is kept by every row: a stall changes nothing, and a completed row meets the invariant of its successor. -/
theorem relayInv_tableRow {i : Instr} {r : Regs} (hp : r.phase = encode i) (h : RelayInv r) (read : Level) :
    RelayInv (tableRow i read r) := by
  obtain ⟨-, e⟩ | ⟨-, e⟩ := tableRow_cases i read r <;> rw [e]
  · exact h
  · exact (relayInv_iff (r := rowDone i read r) rfl).2 (invAt_rowDone read ((relayInv_iff hp).1 h))

theorem relayInv_stepRegs {r : Regs} (h : RelayInv r) (a : Sample) : RelayInv (stepRegs r a) := by
  obtain ⟨i, hp⟩ := exists_op_of_legal h.1
  rw [stepRegs_eq hp]
  exact relayInv_tableRow hp h _

theorem relayInv_resetWith (p : Params) (tape : List Sample) : RelayInv (State.resetWith p tape).regs :=
  (relayInv_iff (i := .dspIr) rfl).2
    ⟨rfl, rfl, fun h => absurd h (by decide), fun h => absurd h (by decide), fun _ => rfl⟩

/-- Settles O23: the step is a `Restart`, whose registers are those of a reset state, or the row of an operation. -/
theorem stepKeepsTheInvariantOfTheReachableStates : Obligations.StepKeepsTheInvariantOfTheReachableStates := by
  intro s t hinv h
  obtain ⟨-, rfl⟩ | ⟨hr, -⟩ := step_cases h
  · exact relayInv_resetWith s.params []
  · rw [regs_of_step hr h]
    exact relayInv_stepRegs hinv s.sample

/-- Settles O22: a reset state of any parameters meets R24, and a step with `rst` leaves the registers of one. -/
theorem invariantHoldsAfterRestart : Obligations.InvariantHoldsAfterRestart := by
  refine ⟨relayInv_resetWith {} [], relayInv_resetWith, fun s t hr h => ?_⟩
  obtain rfl := eq_of_step_of_rst hr h
  exact relayInv_resetWith s.params []

/-- A property from which every step answers a next state that has it holds after any number of steps. -/
theorem runSteps_total {P : State → Prop} (hP : ∀ s, P s → ∃ t, step s = .next t ∧ P t) (n : Nat) {s : State}
    (hs : P s) : ∃ t, runSteps n s = .next t ∧ P t := by
  induction n generalizing s with
  | zero => exact ⟨s, rfl, hs⟩
  | succ n ih =>
    obtain ⟨t, ht, hPt⟩ := hP s hs
    rw [runSteps_succ_of_step ht]
    exact ih hPt

/-- Settles O24: the reset state meets R24; from every state that does there is a next state (L3), which does too. -/
theorem theBlockRunsForeverWithinTheInvariant : Obligations.TheBlockRunsForeverWithinTheInvariant := by
  intro p tape n
  refine runSteps_total (P := fun s => RelayInv s.regs) (fun s hs => ?_) n (relayInv_resetWith p tape)
  obtain ⟨t, ht, -⟩ := everyLegalStateHasALegalSuccessor s hs.1
  exact ⟨t, ht, stepKeepsTheInvariantOfTheReachableStates s t hs ht⟩

end Sys2Proof.Safety

/-! ## What a row writes, and what it leaves alone -/

namespace Sys2Proof.Safety

open Sys2Proof.Machine

/-- The operations that write the counter (R11, R14). -/
def countWriteOps : List Instr := [.i2dStart, .i2dDataF, .d2iStart, .d2iDataF]

/-- The operations that turn DEVICE_SIGNAL (R11, R28). -/
def directionWriteOps : List Instr := [.i2dClaim, .i2dRelease]

/-- The operations that apply `SetLevel` to IR_EMIT (R28). -/
def emitWriteOps : List Instr := [.d2iOn, .d2iReset, .d2iStart, .d2iDataR, .d2iDataF, .d2iStop]

theorem writes_cnt_of_not_mem {i : Instr} (h : i ∉ countWriteOps) :
    (opWrites i).cntClear = false ∧ (opWrites i).cntStep = false := by
  revert h
  cases i <;> decide

theorem writes_devOe_eq_none_iff {i : Instr} : (opWrites i).devOe = none ↔ i ∉ directionWriteOps := by
  cases i <;> decide

theorem writes_devDrv_eq_none_iff {i : Instr} : (opWrites i).devDrv = none ↔ i ∉ deviceWriteOps := by
  cases i <;> decide

theorem writes_emit_eq_none_iff {i : Instr} : (opWrites i).emit = none ↔ i ∉ emitWriteOps := by
  cases i <;> decide

theorem tableRow_cnt_eq {i : Instr} (hclear : (opWrites i).cntClear = false) (hstep : (opWrites i).cntStep = false)
    (read : Level) (r : Regs) : (tableRow i read r).cnt = r.cnt := by
  obtain ⟨-, e⟩ | ⟨-, e⟩ := tableRow_cases i read r <;> simp [e, rowDone, hclear, hstep]

theorem tableRow_devOe_eq {i : Instr} (h : (opWrites i).devOe = none) (read : Level) (r : Regs) :
    (tableRow i read r).devOe = r.devOe := by
  obtain ⟨-, e⟩ | ⟨-, e⟩ := tableRow_cases i read r <;> simp [e, rowDone, h]

theorem tableRow_devDrv_eq {i : Instr} (h : (opWrites i).devDrv = none) (read : Level) (r : Regs) :
    (tableRow i read r).devDrv = r.devDrv := by
  obtain ⟨-, e⟩ | ⟨-, e⟩ := tableRow_cases i read r <;> simp [e, rowDone, h]

theorem tableRow_emit_eq {i : Instr} (h : (opWrites i).emit = none) (read : Level) (r : Regs) :
    (tableRow i read r).emit = r.emit := by
  obtain ⟨-, e⟩ | ⟨-, e⟩ := tableRow_cases i read r <;> simp [e, rowDone, h]

/-- A row whose successor is its only write. -/
theorem tableRow_eq_of_writes_nothing {i : Instr} (h : opWrites i = {}) (read : Level) (r : Regs) :
    tableRow i read r = { r with phase := (tableRow i read r).phase } := by
  obtain ⟨-, e⟩ | ⟨-, e⟩ := tableRow_cases i read r <;> simp [e, rowDone, h]

theorem eq_of_exec {i : Instr} {s t : State} (h : exec i s = .next t) :
    t = withRegs s (tableRow i (readIn i s.sample) s.regs) := by
  rw [exec_eq] at h
  exact (Host.Outcome.next.inj h).symm

/-- Settles O28: a register that the row does not write keeps its value, and no operation writes outside the
registers. -/
theorem operationsLeaveTheRestUnchanged : Obligations.OperationsLeaveTheRestUnchanged := by
  intro i s t h
  have hcnt : i ∉ countWriteOps → t.cnt = s.cnt := fun hi =>
    eq_of_exec h ▸ tableRow_cnt_eq (writes_cnt_of_not_mem hi).1 (writes_cnt_of_not_mem hi).2 _ _
  have hoe : i ∉ directionWriteOps → t.devOe = s.devOe := fun hi =>
    eq_of_exec h ▸ tableRow_devOe_eq (writes_devOe_eq_none_iff.2 hi) _ _
  have hdrv : i ∉ deviceWriteOps → t.devDrv = s.devDrv := fun hi =>
    eq_of_exec h ▸ tableRow_devDrv_eq (writes_devDrv_eq_none_iff.2 hi) _ _
  have hemit : i ∉ emitWriteOps → t.emit = s.emit := fun hi =>
    eq_of_exec h ▸ tableRow_emit_eq (writes_emit_eq_none_iff.2 hi) _ _
  exact ⟨not_imp_comm.1 hcnt, not_imp_comm.1 hoe, not_imp_comm.1 hdrv, not_imp_comm.1 hemit,
    exec_keeps_surroundings h⟩

/-! ### Mutual exclusion, by the mode of the phase -/

theorem writes_emit_of_mode_ir2device {i : Instr} (h : modeField (encode i) = 0b01#2) : (opWrites i).emit = none := by
  revert h
  cases i <;> decide

theorem writes_device_of_mode_device2ir {i : Instr} (h : modeField (encode i) = 0b10#2) :
    (opWrites i).devOe = none ∧ (opWrites i).devDrv = none := by
  revert h
  cases i <;> decide

theorem writes_nothing_of_mode_dispatch {i : Instr} (h : modeField (encode i) = 0b00#2) : opWrites i = {} := by
  revert h
  cases i <;> decide

/-- Settles O32: no row of a relay writes the other relay's registers, and no row of the dispatch loop writes any
(R42). -/
theorem oneRelayNeverTouchesTheOthersOutput : Obligations.OneRelayNeverTouchesTheOthersOutput := by
  intro s t hr h
  obtain ⟨i, hp, ht⟩ := step_row hr h
  have hoe : t.devOe = _ := congrArg Regs.devOe ht
  have hdrv : t.devDrv = _ := congrArg Regs.devDrv ht
  have hemit : t.emit = _ := congrArg Regs.emit ht
  rw [hp]
  refine ⟨fun hm => ?_, fun hm => ?_, fun hm => ?_⟩
  · exact hemit.trans (tableRow_emit_eq (writes_emit_of_mode_ir2device hm) _ _)
  · obtain ⟨hnoOe, hnoDrv⟩ := writes_device_of_mode_device2ir hm
    exact ⟨hoe.trans (tableRow_devOe_eq hnoOe _ _), hdrv.trans (tableRow_devDrv_eq hnoDrv _ _)⟩
  · have hphase : t.phase = _ := congrArg Regs.phase ht
    rw [hphase, ht]
    exact tableRow_eq_of_writes_nothing (writes_nothing_of_mode_dispatch hm) _ _

/-! ### The counter -/

theorem readIn_sample {i : Instr} {l : Line} (h : opReads i = some l) (s : State) :
    readIn i s.sample = readLevel l s := by
  cases i <;> cases h <;> rfl

/-- R14: the operations that wait for a start edge and for the falling edge of a data pulse are those whose rows clear
and step the counter, and the edge is seen where such a row does not stall. -/
theorem startEdgeSeen_iff {s : State} {i : Instr} (hp : s.phase = encode i) :
    StartEdgeSeen s ↔ (opWrites i).cntClear = true ∧ ¬Stalls i (readIn i s.sample) := by
  cases i <;> simp [StartEdgeSeen, hp, opWrites, Stalls, opClass, opWants, readIn, opReads, State.irRx, State.devIn,
    eq_comm]

theorem pulseEdgeSeen_iff {s : State} {i : Instr} (hp : s.phase = encode i) :
    PulseEdgeSeen s ↔ (opWrites i).cntStep = true ∧ ¬Stalls i (readIn i s.sample) := by
  cases i <;> simp [PulseEdgeSeen, hp, opWrites, Stalls, opClass, opWants, readIn, opReads, State.irRx, State.devIn,
    eq_comm]

theorem cntClear_of_cntStep {i : Instr} (h : (opWrites i).cntStep = true) : (opWrites i).cntClear = false := by
  revert h
  cases i <;> decide

/-- Settles O30: the counter is written where a row that clears or steps it is completed, and nowhere else. -/
theorem countIsWrittenInThreeWaysOnly : Obligations.CountIsWrittenInThreeWaysOnly := by
  intro s t hr h
  obtain ⟨i, hp, ht⟩ := step_row hr h
  have hcnt : t.cnt = (tableRow i (readIn i s.sample) s.regs).cnt := congrArg Regs.cnt ht
  rw [startEdgeSeen_iff hp, pulseEdgeSeen_iff hp, hcnt]
  obtain ⟨hst, e⟩ | ⟨hst, e⟩ := tableRow_cases i (readIn i s.sample) s.regs <;> rw [e]
  · exact ⟨fun hseen => absurd hst hseen.2, fun hseen => absurd hst hseen.2, fun hseen => absurd hst hseen.2,
      fun _ _ => rfl⟩
  · refine ⟨fun ⟨hclear, _⟩ => by simp [rowDone, hclear], fun ⟨hstep, _⟩ hmore => ?_, fun ⟨hstep, _⟩ hlast => ?_,
      fun hnoClear hnoStep => ?_⟩
    · simpa [rowDone, hstep, cntClear_of_cntStep hstep, hmore] using count_succ_toNat hmore
    · simp [rowDone, hstep, cntClear_of_cntStep hstep, hlast]
    · have hclear : ¬(opWrites i).cntClear = true := fun h => hnoClear ⟨h, hst⟩
      have hstep : ¬(opWrites i).cntStep = true := fun h => hnoStep ⟨h, hst⟩
      simp [rowDone, hclear, hstep]

/-! ### The successor, and the order of a pass -/

/-- The operation at which a row of `i` leaves `phase`: itself at a stall, else its successor (R13). -/
def successor (i : Instr) (read : Level) (last : Bool) : Instr :=
  if Stalls i read then i else opNext i read last

theorem tableRow_phase {i : Instr} {r : Regs} (hp : r.phase = encode i) (read : Level) :
    (tableRow i read r).phase = encode (successor i read (decide (r.cnt = 15#4))) := by
  obtain ⟨h, e⟩ | ⟨h, e⟩ := tableRow_cases i read r
  · rw [e, hp, successor, if_pos h]
  · rw [e, rowDone, successor, if_neg h]

theorem step_successor {s t : State} {i : Instr} (hp : s.phase = encode i) (hr : rst s = false)
    (h : step s = .next t) : ∃ read last, t.phase = encode (successor i read last) := by
  obtain ⟨k, hk, ht⟩ := step_row hr h
  obtain rfl := encode_injective (hp.symm.trans hk)
  exact ⟨_, _, (congrArg Regs.phase ht).trans (tableRow_phase (r := s.regs) hp _)⟩

/-- `j` may come after `i` in the order of a loop pass (R55). -/
abbrev InPassOrder (i j : Instr) : Prop :=
  (i = .dspKick → j = .dspIr) ∧
  (i ≠ .dspKick → passRank i ≤ passRank j) ∧
  (j = .dspIr → i = .dspKick) ∧
  (j = .i2dClaim → i = .dspIr) ∧
  (j = .dspDev → i = .dspIr ∨ i = .i2dRelease) ∧
  (j = .d2iOn → i = .dspDev) ∧
  (j = .dspKick → i = .dspDev ∨ i = .d2iGuard) ∧
  (passRank i < passRank j → j = .i2dClaim ∨ j = .dspDev ∨ j = .d2iOn ∨ j = .dspKick)

theorem inPassOrder_successor (i : Instr) (read : Level) (last : Bool) : InPassOrder i (successor i read last) := by
  cases i <;> cases read <;> cases last <;> decide

/-- Settles O42: the operation after a step is a successor by the table, and every successor is in the order of R55. -/
theorem aPassVisitsItsPartsInOrder : Obligations.APassVisitsItsPartsInOrder := by
  intro s t i j hp hq hr h
  obtain ⟨read, last, ht⟩ := step_successor hp hr h
  obtain rfl := encode_injective (hq.symm.trans ht)
  exact inPassOrder_successor i read last

/-! ### The level mux -/

/-- The edge waits of `ir2device` (R21). -/
def ir2deviceWaitOps : List Instr := [.i2dReset, .i2dStart, .i2dDataR, .i2dDataF, .i2dStop]

/-- The edge waits of `device2ir` on DEVICE_SIGNAL (R21). -/
def device2irWaitOps : List Instr := [.d2iReset, .d2iStart, .d2iDataR, .d2iDataF, .d2iStop]

/-- R21: a completed wait of `ir2device` writes the level it waited for to `dev_drv`. -/
theorem writes_devDrv_of_wait {i : Instr} (h : i ∈ ir2deviceWaitOps) {read : Level} (hdone : ¬Stalls i read) :
    (opWrites i).devDrv = some (Drive.ofLevel read) := by
  revert h hdone
  cases i <;> cases read <;> decide

/-- R21: a completed wait of `device2ir` writes the inverse of the level it waited for to `emit`. -/
theorem writes_emit_of_wait {i : Instr} (h : i ∈ device2irWaitOps) {read : Level} (hdone : ¬Stalls i read) :
    (opWrites i).emit = some (Emitter.ofLevel read) := by
  revert h hdone
  cases i <;> cases read <;> decide

theorem opReads_of_ir2deviceWait {i : Instr} (h : i ∈ ir2deviceWaitOps) : opReads i = some .irReceive := by
  revert h
  cases i <;> decide

theorem opReads_of_device2irWait {i : Instr} (h : i ∈ device2irWaitOps) : opReads i = some .deviceSignal := by
  revert h
  cases i <;> decide

/-- R16, R21: a drive taken from a level shows that level where ASSERTED is high, and its inverse where it is low. -/
theorem driveLevel_ofLevel (p : Params) (v : Level) :
    driveLevel p (Drive.ofLevel v) = if p.devAssertLevel = .high then v else v.flip := by
  cases v <;> cases h : p.devAssertLevel <;> simp [Drive.ofLevel, driveLevel, h, Level.flip]

theorem not_stalls_of_phase_ne {i : Instr} {r : Regs} {read : Level}
    (h : (tableRow i read r).phase ≠ r.phase) : ¬Stalls i read :=
  fun hst => h (by rw [tableRow_of_stalls hst])

theorem tableRow_eq_self_of_phase_eq {i : Instr} {r : Regs} {read : Level} (hp : r.phase = encode i)
    (h : (tableRow i read r).phase = r.phase) : tableRow i read r = r := by
  obtain ⟨-, e⟩ | ⟨-, e⟩ := tableRow_cases i read r
  · exact e
  · rw [e, rowDone, hp] at h
    exact absurd (encode_injective h) (opNext_ne i read _)

/-- Settles O31: where `phase` moves, the row was completed on the level just read, which the two muxes route to their
sinks; where it does not, the row stalled. -/
theorem theLevelMuxRoutesTheLevelJustRead : Obligations.TheLevelMuxRoutesTheLevelJustRead := by
  intro s t hr h
  obtain ⟨i, hp, ht⟩ := step_row hr h
  obtain ⟨-, hparams, -⟩ := step_around h
  have hphase : t.phase = _ := congrArg Regs.phase ht
  have hdone (hmoved : t.phase ≠ s.phase) : ¬Stalls i (readIn i s.sample) :=
    not_stalls_of_phase_ne (r := s.regs) (hphase ▸ hmoved)
  refine ⟨fun hi hmoved => ?_, fun hi hmoved => ?_, fun hstay => ?_, fun hm => ?_⟩
  · rw [hp] at hi
    have hw : i ∈ ir2deviceWaitOps := encode_mem_codes.1 hi
    have hdrv : t.devDrv = Drive.ofLevel s.irRx := by
      rw [← readLevel_irReceive, ← readIn_sample (opReads_of_ir2deviceWait hw), ← regs_devDrv, ht,
        tableRow_of_not_stalls (hdone hmoved), rowDone, writes_devDrv_of_wait hw (hdone hmoved), Option.getD_some]
    exact ⟨hdrv, by rw [devOutPad, hdrv, hparams, driveLevel_ofLevel]⟩
  · rw [hp] at hi
    have hw : i ∈ device2irWaitOps := encode_mem_codes.1 hi
    rw [← readLevel_deviceSignal, ← readIn_sample (opReads_of_device2irWait hw), ← regs_emit, ht,
      tableRow_of_not_stalls (hdone hmoved), rowDone, writes_emit_of_wait hw (hdone hmoved), Option.getD_some]
  · rw [ht]
    exact tableRow_eq_self_of_phase_eq (r := s.regs) hp (hphase ▸ hstay)
  · rw [hp] at hm
    have hno := writes_nothing_of_mode_dispatch hm
    exact ⟨(congrArg Regs.devDrv ht).trans (tableRow_devDrv_eq (by rw [hno]) _ _),
      (congrArg Regs.emit ht).trans (tableRow_emit_eq (by rw [hno]) _ _)⟩

/-! ### Which operation reaches which line -/

/-- The operations that read IR_RECEIVE (R28). -/
def irReadOps : List Instr := [.dspIr, .i2dReset, .i2dStart, .i2dDataR, .i2dDataF, .i2dStop, .d2iGuard]

/-- The operations that read DEVICE_SIGNAL (R28). -/
def deviceReadOps : List Instr := [.dspDev, .d2iReset, .d2iStart, .d2iDataR, .d2iDataF, .d2iStop]

theorem opReads_irReceive_iff {i : Instr} : opReads i = some .irReceive ↔ i ∈ irReadOps := by
  cases i <;> decide

theorem opReads_deviceSignal_iff {i : Instr} : opReads i = some .deviceSignal ↔ i ∈ deviceReadOps := by
  cases i <;> decide

/-- An operation finds the same level in two samples that agree on the line it reads. -/
theorem readIn_congr {i : Instr} {a b : Sample} (hir : i ∈ irReadOps → a.irRx = b.irRx)
    (hdev : i ∈ deviceReadOps → a.devIn = b.devIn) : readIn i a = readIn i b := by
  rw [← opReads_irReceive_iff] at hir
  rw [← opReads_deviceSignal_iff] at hdev
  rw [readIn, readIn]
  split
  · exact hir ‹_›
  · exact hdev ‹_›
  · rfl

/-- R41: no operation reads DEVICE_SIGNAL at a phase at which the block drives it. -/
theorem not_mem_deviceReadOps_of_claimed {i : Instr} (h : i ∈ claimedOps) : i ∉ deviceReadOps := by
  revert h
  cases i <;> decide

/-- Settles O33: where the invariant has the line claimed, the operation at `phase` does not read it (R41). -/
theorem theLevelOfADrivenLineIsNeverRead : Obligations.TheLevelOfADrivenLineIsNeverRead := by
  intro s t hinv hoe hregs hparams hrst hir
  refine nextRegs_step_congr hregs hparams hrst ?_
  obtain ⟨i, hp⟩ := exists_op_of_legal hinv.1
  have hclaimed : i ∈ claimedOps := directionAt_eq_output_iff.1 (((relayInv_iff hp).1 hinv).direction.symm.trans hoe)
  have hread : readIn i s.sample = readIn i t.sample :=
    readIn_congr (fun _ => hir) fun hi => absurd hi (not_mem_deviceReadOps_of_claimed hclaimed)
  rw [← hregs, stepRegs_eq hp, stepRegs_eq hp, hread]

/-- A reading operation goes on differently by the level it reads. -/
theorem successor_low_ne_high {i : Instr} (h : opReads i ≠ none) (last : Bool) :
    successor i .low last ≠ successor i .high last := by
  revert h
  cases i <;> cases last <;> decide

theorem tableRow_low_ne_high {i : Instr} {r : Regs} (hp : r.phase = encode i) (h : opReads i ≠ none) :
    tableRow i .low r ≠ tableRow i .high r := by
  intro he
  have hphase := congrArg Regs.phase he
  rw [tableRow_phase hp, tableRow_phase hp] at hphase
  exact successor_low_ne_high h _ (encode_injective hphase)

/-- A state with the registers `r` that is presented with the sample `a`. -/
def facing (r : Regs) (a : Sample) : State := withRegs (State.resetWith {} [a]) r

theorem nextRegs_exec (i : Instr) (s : State) :
    nextRegs (exec i s) = some (tableRow i (readIn i s.sample) s.regs) := by
  rw [exec_eq]
  rfl

/-- The registers of a reset state, at the phase of `i`. -/
def regsAt (i : Instr) : Regs := { (State.resetWith {} []).regs with phase := encode i }

theorem irReader_depends {i : Instr} (h : i ∈ irReadOps) :
    ∃ s t : State, s.regs = t.regs ∧ s.devIn = t.devIn ∧ nextRegs (exec i s) ≠ nextRegs (exec i t) := by
  refine ⟨facing (regsAt i) ⟨false, .low, .low⟩, facing (regsAt i) ⟨false, .high, .low⟩, rfl, rfl, ?_⟩
  have hreads := opReads_irReceive_iff.2 h
  rw [nextRegs_exec, nextRegs_exec, readIn_sample hreads, readIn_sample hreads]
  exact fun he => tableRow_low_ne_high (r := regsAt i) rfl (by simp [hreads]) (Option.some.inj he)

theorem deviceReader_depends {i : Instr} (h : i ∈ deviceReadOps) :
    ∃ s t : State, s.regs = t.regs ∧ s.irRx = t.irRx ∧ nextRegs (exec i s) ≠ nextRegs (exec i t) := by
  refine ⟨facing (regsAt i) ⟨false, .low, .low⟩, facing (regsAt i) ⟨false, .low, .high⟩, rfl, rfl, ?_⟩
  have hreads := opReads_deviceSignal_iff.2 h
  rw [nextRegs_exec, nextRegs_exec, readIn_sample hreads, readIn_sample hreads]
  exact fun he => tableRow_low_ne_high (r := regsAt i) rfl (by simp [hreads]) (Option.some.inj he)

/-- The sample on which `i` completes. -/
def wantedSample (i : Instr) : Sample := ⟨false, (opWants i).getD .low, (opWants i).getD .low⟩

theorem not_stalls_wantedSample (i : Instr) : ¬Stalls i (readIn i (wantedSample i)) := by
  cases i <;> decide

theorem exec_facing_wantedSample (i : Instr) (r : Regs) :
    exec i (facing r (wantedSample i)) =
      .next (withRegs (facing r (wantedSample i)) (rowDone i (readIn i (wantedSample i)) r)) := by
  rw [exec_eq, ← tableRow_of_not_stalls (not_stalls_wantedSample i)]
  rfl

theorem emitWriter_iff {i : Instr} : i ∈ emitWriteOps ↔ ∃ s t : State, exec i s = .next t ∧ t.emit ≠ s.emit := by
  constructor
  · intro h
    obtain ⟨e, hw⟩ := Option.ne_none_iff_exists'.1 (mt writes_emit_eq_none_iff.1 (not_not.2 h))
    obtain ⟨old, hne⟩ : ∃ old, e ≠ old := by cases e <;> [exact ⟨.on, nofun⟩; exact ⟨.off, nofun⟩]
    refine ⟨_, _, exec_facing_wantedSample i { regsAt i with emit := old }, ?_⟩
    change (opWrites i).emit.getD old ≠ old
    rwa [hw]
  · rintro ⟨s, t, he, hne⟩
    obtain ⟨-, -, -, hemit, -⟩ := operationsLeaveTheRestUnchanged i s t he
    exact hemit hne

theorem deviceWriter_iff {i : Instr} :
    i ∈ deviceWriteOps ↔ ∃ s t : State, exec i s = .next t ∧ t.devDrv ≠ s.devDrv := by
  constructor
  · intro h
    obtain ⟨d, hw⟩ := Option.ne_none_iff_exists'.1 (mt writes_devDrv_eq_none_iff.1 (not_not.2 h))
    obtain ⟨old, hne⟩ : ∃ old, d ≠ old := by cases d <;> [exact ⟨.asserted, nofun⟩; exact ⟨.deasserted, nofun⟩]
    refine ⟨_, _, exec_facing_wantedSample i { regsAt i with devDrv := old }, ?_⟩
    change (opWrites i).devDrv.getD old ≠ old
    rwa [hw]
  · rintro ⟨s, t, he, hne⟩
    obtain ⟨-, -, hdrv, -⟩ := operationsLeaveTheRestUnchanged i s t he
    exact hdrv hne

/-- A line that an operation turned has the direction that its row writes. -/
theorem writes_devOe_of_changed {i : Instr} {s t : State} (h : exec i s = .next t) (hne : t.devOe ≠ s.devOe) :
    (opWrites i).devOe = some t.devOe := by
  obtain rfl := eq_of_exec h
  cases hw : (opWrites i).devOe with
  | none => exact absurd (tableRow_devOe_eq hw _ _) hne
  | some d =>
    obtain ⟨-, e⟩ | ⟨-, e⟩ := tableRow_cases i (readIn i s.sample) s.regs
    · exact absurd (congrArg Regs.devOe e) hne
    · simp [withRegs, e, rowDone, hw]

theorem claims_iff {i : Instr} :
    i = .i2dClaim ↔ ∃ s t : State, exec i s = .next t ∧ t.devOe = .output ∧ s.devOe = .input := by
  constructor
  · rintro rfl
    exact ⟨facing (regsAt .i2dClaim) ⟨false, .low, .low⟩, _, exec_i2dClaim _, rfl, rfl⟩
  · rintro ⟨s, t, he, ht, hs⟩
    have hw := writes_devOe_of_changed he (by simp [ht, hs])
    rw [ht] at hw
    revert hw
    cases i <;> decide

theorem releases_iff {i : Instr} :
    i = .i2dRelease ↔ ∃ s t : State, exec i s = .next t ∧ t.devOe = .input ∧ s.devOe = .output := by
  constructor
  · rintro rfl
    exact ⟨facing { regsAt .i2dRelease with devOe := .output } ⟨false, .low, .low⟩, _, exec_i2dRelease _, rfl, rfl⟩
  · rintro ⟨s, t, he, ht, hs⟩
    have hw := writes_devOe_of_changed he (by simp [ht, hs])
    rw [ht] at hw
    revert hw
    cases i <;> decide

/-- R28, derived from R24 (b): DEVICE_SIGNAL is an input at the phases that read it. -/
theorem directionAt_of_reader {i : Instr} (h : i ∈ deviceReadOps) : directionAt i = .input := by
  revert h
  cases i <;> decide

/-- R28, derived from R24 (g): DEVICE_SIGNAL is an output at the phases that write it. -/
theorem directionAt_of_writer {i : Instr} (h : i ∈ deviceWriteOps) : directionAt i = .output :=
  directionAt_eq_output_iff.2 (deviceWriteOps_subset_claimedOps h)

/-- Settles O27: an operation sees its one line through its row, on which the row depends; it writes a level or a
direction in some state exactly if its row has that write; and the invariant fixes the direction by the phase (R28). -/
theorem eachLineIsReachedOnlyByItsListedOperations : Obligations.EachLineIsReachedOnlyByItsListedOperations := by
  intro i
  refine ⟨fun s t hregs hir hdev => ?_, irReader_depends, deviceReader_depends, emitWriter_iff, deviceWriter_iff,
    claims_iff, releases_iff, fun s hinv hp => ?_⟩
  · rw [nextRegs_exec, nextRegs_exec, hregs, readIn_congr hir hdev]
  · have hoe : s.devOe = directionAt i := ((relayInv_iff (r := s.regs) hp).1 hinv).direction
    exact ⟨fun h => hoe.trans (directionAt_of_reader h), fun h => hoe.trans (directionAt_of_writer h)⟩

end Sys2Proof.Safety

/-! ## The guard, the outputs and `SetLevel` -/

namespace Sys2Proof.Machine

open Sys2Proof.Safety

/-- R71: `D2I_GUARD` waits for IR_RECEIVE to read 1 and goes to the kick. -/
theorem exec_d2iGuard (s : State) :
    exec .d2iGuard s = .next (waitLevel .irReceive .high (fun s => goto .dspKick s) s) := rfl

/-- Settles O11: a `WaitLevel` for 1 on IR_RECEIVE (R71), done on that level, at its first step too, and staying on the
other. -/
theorem guardWaitsForTheReceiver : Obligations.GuardWaitsForTheReceiver :=
  fun s => ⟨exec_wait_done (exec_d2iGuard s), fun h => exec_wait_stay (exec_d2iGuard s) (level_ne_high_iff.2 h)⟩

theorem level_flip_ne (v : Level) : v.flip ≠ v := by
  cases v <;> decide

/-- Settles O34: each pad is its register through its level parameter (R16, R17, R20). -/
theorem outputsAreFunctionsOfTheRegisters : Obligations.OutputsAreFunctionsOfTheRegisters := by
  intro s
  refine ⟨rfl, fun h => ?_, fun h => ?_, fun h => ?_, fun h => ?_, devicePad_of_input, devicePad_of_output,
    wdtKick_eq_true_iff s, ?_⟩
  · simp [devOutPad, driveLevel, h]
  · simp [devOutPad, driveLevel, h, level_flip_ne]
  · simp [irEmitPad, emitLevel, h]
  · simp [irEmitPad, emitLevel, h, level_flip_ne]
  · simp only [outputs, wdtKick_eq_true_iff]
    rfl

/-- Settles O37: `SetLevel` writes one register; an input line shows nothing whatever is stored; and R24 (g) is the last
clause of the invariant. -/
theorem setLevelWritesTheLevelRegisterOfItsLine : Obligations.SetLevelWritesTheLevelRegisterOfItsLine := by
  intro s
  refine ⟨fun _ => rfl, fun _ => rfl, fun hin v => ?_, fun hinv hi => ?_⟩
  · exact devicePad_of_input ((setLevelDevice_devOe v s).trans hin)
  · obtain ⟨-, -, -, -, -, -, hout⟩ := hinv
    exact hout hi

end Sys2Proof.Machine

/-! ## Runs: what they keep, and the first steps of some -/

namespace Sys2Proof.Safety

open Sys2Proof.Machine

theorem restartFree_succ {n : Nat} {s : State} (h : restartFree (n + 1) s = true) :
    rst s = false ∧ ∀ t, step s = .next t → restartFree n t = true := by
  simp only [restartFree, Bool.and_eq_true, Bool.not_eq_true'] at h
  obtain ⟨hr, hrest⟩ := h
  exact ⟨hr, fun t ht => by simpa [ht] using hrest⟩

theorem restartFree_succ_of_step {n : Nat} {s t : State} (hr : rst s = false) (ht : step s = .next t) :
    restartFree (n + 1) s = restartFree n t := by
  simp [restartFree, hr, ht]

theorem quiet_succ {n : Nat} {s : State} (h : quiet (n + 1) s = true) :
    rst s = false ∧ wdtKick s = false ∧ ∀ t, step s = .next t → quiet n t = true := by
  simp only [quiet, Bool.and_eq_true, Bool.not_eq_true'] at h
  obtain ⟨⟨hr, hk⟩, hrest⟩ := h
  exact ⟨hr, hk, fun t ht => by simpa [ht] using hrest⟩

theorem quiet_succ_of_step {n : Nat} {s t : State} (hr : rst s = false) (hk : wdtKick s = false)
    (ht : step s = .next t) : quiet (n + 1) s = quiet n t := by
  simp [quiet, hr, hk, ht]

/-- Settles O44: one step takes the head of the tape, advances the step number and keeps the parameters; by induction on
the number of steps. -/
theorem runsConsumeTheInputsInOrder : Obligations.RunsConsumeTheInputsInOrder := by
  intro n
  induction n with
  | zero =>
    rintro s t ⟨⟩
    exact ⟨rfl, rfl, rfl⟩
  | succ n ih =>
    intro s t h
    obtain ⟨a, ha, hrun⟩ := runSteps_succ_cases h
    obtain ⟨hparams, htape, hno⟩ := ih a t hrun
    obtain ⟨-, hparams', htape', hno'⟩ := step_around ha
    refine ⟨hparams.trans hparams', ?_, ?_⟩
    · rw [htape, htape', List.drop_tail]
    · rw [hno, hno']
      omega

/-- Settles O46: each quiet step counts one more; by induction on the number of steps. -/
theorem timerRestartsExactlyAtTheTimeout : Obligations.TimerRestartsExactlyAtTheTimeout := by
  have count : ∀ (n : Nat) (s t : State), quiet n s = true → runSteps n s = .next t → t.wdtCnt = s.wdtCnt + n := by
    intro n
    induction n with
    | zero =>
      rintro s t - ⟨⟩
      rfl
    | succ n ih =>
      intro s t hq h
      obtain ⟨a, ha, hrun⟩ := runSteps_succ_cases h
      obtain ⟨hr, hk, hrest⟩ := quiet_succ hq
      obtain ⟨hwdt, -⟩ := step_around ha
      rw [ih a t (hrest a ha) hrun, hwdt, wdtNext_of_quiet hr hk]
      omega
  intro n s t hq h
  obtain ⟨hparams, -⟩ := runsConsumeTheInputsInOrder n s t h
  have hcount := count n s t hq h
  exact ⟨hcount, by rw [rst_eq_true_iff, hparams, hcount]⟩

/-- A legal state whose timer is at most `m` steps from the timeout is at most `m` steps from a kick or a restart. -/
theorem kick_or_restart_within (m : Nat) {s : State} (hs : SafeState s) (hm : s.params.wdtTimeout.val ≤ s.wdtCnt + m) :
    ∃ n t, n ≤ m ∧ runSteps n s = .next t ∧ (rst t = true ∨ wdtKick t = true) := by
  induction m generalizing s with
  | zero => exact ⟨0, s, le_rfl, rfl, .inl ((rst_eq_true_iff s).2 (.inr hm))⟩
  | succ m ih =>
    by_cases hnow : rst s = true ∨ wdtKick s = true
    · exact ⟨0, s, Nat.zero_le _, rfl, hnow⟩
    · obtain ⟨hr, hk⟩ := not_or.1 hnow
      obtain ⟨a, ha, hsa⟩ := everyLegalStateHasALegalSuccessor s hs
      obtain ⟨hwdt, hparams, -⟩ := step_around ha
      rw [wdtNext_of_quiet (eq_false_of_ne_true hr) (eq_false_of_ne_true hk)] at hwdt
      obtain ⟨n, t, hn, hrun, hend⟩ := ih hsa (by rw [hparams, hwdt]; omega)
      exact ⟨n + 1, t, Nat.succ_le_succ hn, (runSteps_succ_of_step ha).trans hrun, hend⟩

/-- Settles O47: at every legal state the timer is at most the whole timeout from running out. -/
theorem aStallEndsWithinTheTimeout : Obligations.AStallEndsWithinTheTimeout :=
  fun _ hs => kick_or_restart_within _ hs (Nat.le_add_left ..)

/-- Settles O39: the claim turns the line and leaves the drive (R56), and the step after it deasserts (R57). -/
theorem theClaimExposesTheStaleDriveForOneStep : Obligations.TheClaimExposesTheStaleDriveForOneStep := by
  intro s hp hfree
  obtain ⟨hr, hfree⟩ := restartFree_succ hfree
  have ht := step_of_exec hp hr (exec_i2dClaim s)
  obtain ⟨hr', -⟩ := restartFree_succ (hfree _ ht)
  exact ⟨_, _, ht, step_of_exec rfl hr' (exec_i2dInit _), devicePad_of_output rfl, devicePad_of_output rfl⟩

/-- Settles O40: the stop edge asserts with the line still an output (R62), and the release turns it without writing the
drive (R63). -/
theorem theFinalAssertLastsExactlyOneStep : Obligations.TheFinalAssertLastsExactlyOneStep := by
  intro s hp hoe hir hfree
  obtain ⟨hr, hfree⟩ := restartFree_succ hfree
  have ht := step_of_exec hp hr (exec_wait_done (exec_i2dStop s) hir)
  obtain ⟨hr', -⟩ := restartFree_succ (hfree _ ht)
  exact ⟨_, _, ht, step_of_exec rfl hr' (exec_i2dRelease _), devicePad_of_output hoe, devicePad_of_input rfl, rfl⟩

/-- Settles O41: both checks read high and go on, the kick goes back, and none of the three writes anything but `phase`
(R52 to R54). -/
theorem anIdlePassTakesThreeSteps : Obligations.AnIdlePassTakesThreeSteps := by
  intro s a b rest hp htape ha hb hfree
  obtain ⟨hr, hfree⟩ := restartFree_succ hfree
  have hir : readLevel .irReceive s = .high := by
    rw [readLevel_irReceive, State.irRx, sample_of_cons s a _ htape, ha]
  have h₁ := step_of_exec hp hr ((exec_dspIr s).trans (congrArg _ (checkLine_of_high hir)))
  generalize hs₁ : tick s (goto .dspDev s) = s₁ at h₁
  have hp₁ : s₁.phase = encode .dspDev := hs₁ ▸ rfl
  obtain ⟨hr₁, hfree₁⟩ := restartFree_succ (hfree s₁ h₁)
  have htape₁ : s₁.tape = b :: rest := by simp [← hs₁, htape]
  have hdev : readLevel .deviceSignal s₁ = .high := by
    rw [readLevel_deviceSignal, State.devIn, sample_of_cons s₁ b _ htape₁, hb]
  have h₂ := step_of_exec hp₁ hr₁ ((exec_dspDev s₁).trans (congrArg _ (checkLine_of_high hdev)))
  generalize hs₂ : tick s₁ (goto .dspKick s₁) = s₂ at h₂
  have hp₂ : s₂.phase = encode .dspKick := hs₂ ▸ rfl
  obtain ⟨hr₂, -⟩ := restartFree_succ (hfree₁ s₂ h₂)
  have hkick : wdtKick s₂ = true := (wdtKick_eq_true_iff s₂).2 hp₂
  have h₃ := step_of_exec hp₂ hr₂ (exec_dspKick s₂)
  refine ⟨?_, ⟨s₂, ?_, hkick⟩, tick s₂ (goto .dspIr s₂), ?_, ?_, wdtNext_of_restart_or_kick (.inr hkick)⟩
  · rw [quiet_succ_of_step hr (by simp [wdtKick, hp]) h₁, quiet_succ_of_step hr₁ (by simp [wdtKick, hp₁]) h₂]
    rfl
  · rw [runSteps_succ_of_step h₁, runSteps_succ_of_step h₂, runSteps_zero]
  · rw [runSteps_succ_of_step h₁, runSteps_succ_of_step h₂, runSteps_succ_of_step h₃, runSteps_zero]
  · subst hs₂ hs₁
    simp [State.regs, hp]

end Sys2Proof.Safety

/-! ## A run without restart as a fold over its samples -/

namespace Sys2Proof.Safety

open Sys2Proof.Machine

/-- The registers after the samples `l`, one a step. -/
def runRegs (r : Regs) (l : List Sample) : Regs := l.foldl stepRegs r

@[simp] theorem runRegs_nil (r : Regs) : runRegs r [] = r := rfl

@[simp] theorem runRegs_cons (r : Regs) (a : Sample) (l : List Sample) :
    runRegs r (a :: l) = runRegs (stepRegs r a) l := rfl

theorem runRegs_append (r : Regs) (l l' : List Sample) : runRegs r (l ++ l') = runRegs (runRegs r l) l' :=
  List.foldl_append

theorem sample_eq_head {s : State} (h : s.tape ≠ []) : s.tape = s.sample :: s.tape.tail := by
  cases ht : s.tape with
  | nil => exact absurd ht h
  | cons a l => rw [sample_of_cons s a l ht, List.tail_cons]

theorem runSteps_of_restartFree {n : Nat} {s : State} (hs : SafeState s) (hfree : restartFree n s = true)
    (hn : n ≤ s.tape.length) : ∃ t, runSteps n s = .next t ∧ t.regs = runRegs s.regs (s.tape.take n) := by
  induction n generalizing s with
  | zero => exact ⟨s, rfl, rfl⟩
  | succ n ih =>
    obtain ⟨hr, hfree⟩ := restartFree_succ hfree
    obtain ⟨a, ha, hsa⟩ := everyLegalStateHasALegalSuccessor s hs
    obtain ⟨-, -, htape, -⟩ := step_around ha
    have hcons := sample_eq_head (s := s) (fun h => by simp [h] at hn)
    obtain ⟨t, hrun, ht⟩ := ih hsa (hfree a ha) (by rw [htape, List.length_tail]; omega)
    refine ⟨t, (runSteps_succ_of_step ha).trans hrun, ?_⟩
    rw [ht, regs_of_step hr ha, htape, hcons]
    rfl

theorem regs_of_runSteps {n : Nat} {s t : State} (hs : SafeState s) (hfree : restartFree n s = true)
    (hn : n ≤ s.tape.length) (h : runSteps n s = .next t) : t.regs = runRegs s.regs (s.tape.take n) := by
  obtain ⟨u, hu, hregs⟩ := runSteps_of_restartFree hs hfree hn
  rw [h] at hu
  cases hu
  exact hregs

theorem noPowerCycle_cons {a : Sample} {l : List Sample} :
    noPowerCycle (a :: l) = true ↔ a.powerOn = false ∧ noPowerCycle l = true := by
  simp [noPowerCycle]

theorem noPowerCycle_append {l l' : List Sample} :
    noPowerCycle (l ++ l') = true ↔ noPowerCycle l = true ∧ noPowerCycle l' = true := by
  simp [noPowerCycle]

theorem wdtNext_le (s : State) : wdtNext s ≤ s.wdtCnt + 1 := by
  unfold wdtNext
  split <;> omega

/-- R79: with no power cycle on the tape and the timeout not before its end, no step is a `Restart`. -/
theorem restartFree_of_tape {l rest : List Sample} {s : State} (hs : SafeState s) (htape : s.tape = l ++ rest)
    (hpow : noPowerCycle l = true) (hwdt : s.wdtCnt + l.length ≤ s.params.wdtTimeout.val) :
    restartFree l.length s = true := by
  induction l generalizing s with
  | nil => rfl
  | cons a l ih =>
    rw [List.length_cons] at hwdt ⊢
    obtain ⟨hoff, hpow⟩ := noPowerCycle_cons.1 hpow
    have hr : rst s = false :=
      (rst_eq_false_iff s).2 ⟨by rw [State.powerOn, sample_of_cons s a _ htape, hoff], by omega⟩
    obtain ⟨t, ht, hst⟩ := everyLegalStateHasALegalSuccessor s hs
    obtain ⟨hcnt, hparams, htape', -⟩ := step_around ht
    have hle := wdtNext_le s
    rw [restartFree_succ_of_step hr ht]
    exact ih hst (by simp [htape', htape]) hpow (by rw [hparams, hcnt]; omega)

theorem runSteps_of_tape {l rest : List Sample} {s : State} (hs : SafeState s) (htape : s.tape = l ++ rest)
    (hpow : noPowerCycle l = true) (hwdt : s.wdtCnt + l.length ≤ s.params.wdtTimeout.val) :
    ∃ t, runSteps l.length s = .next t ∧ t.tape = rest ∧ t.regs = runRegs s.regs l := by
  obtain ⟨t, hrun, hregs⟩ :=
    runSteps_of_restartFree hs (restartFree_of_tape hs htape hpow hwdt) (by simp [htape])
  obtain ⟨-, htape', -⟩ := runsConsumeTheInputsInOrder _ _ _ hrun
  exact ⟨t, hrun, by simp [htape', htape], by simp [hregs, htape]⟩

theorem runRegs_of_stalls {r : Regs} {l : List Sample} (h : ∀ a ∈ l, stepRegs r a = r) : runRegs r l = r := by
  induction l with
  | nil => rfl
  | cons a l ih =>
    rw [runRegs_cons, h a List.mem_cons_self]
    exact ih fun b hb => h b (List.mem_cons_of_mem a hb)

/-- R32: on a sample whose level on the line of a wait is not the wanted one, the registers stay. -/
theorem stepRegs_of_unwanted {r : Regs} {i : Instr} {w : Level} {a : Sample} (hp : r.phase = encode i)
    (hw : opWants i = some w) (hread : readIn i a ≠ w) : stepRegs r a = r := by
  have hwait : opClass i = .edgeWait := by
    revert hw
    cases i <;> simp [opWants, opClass]
  rw [stepRegs_eq hp]
  exact tableRow_of_stalls ⟨hwait, by simpa [hw] using Ne.symm hread⟩ r

/-- R28: IR_EMIT is never read. -/
theorem opReads_ne_irEmit (i : Instr) : opReads i ≠ some .irEmit := by
  cases i <;> decide

/-- Settles O43: over samples that are not at the wanted level every step leaves the registers, and the outputs are a
function of registers and parameters (R87). -/
theorem aStalledWaitHoldsRegistersAndOutputs : Obligations.AStalledWaitHoldsRegistersAndOutputs := by
  intro n s i l w hp hl hw hn hunwanted hfree
  obtain ⟨t, hrun, ht⟩ := runSteps_of_restartFree (safeState_of_phase hp) hfree hn
  obtain ⟨hparams, -⟩ := runsConsumeTheInputsInOrder n s t hrun
  have hregs : t.regs = s.regs := by
    rw [ht]
    refine runRegs_of_stalls fun a ha => stepRegs_of_unwanted hp hw ?_
    obtain ⟨hir, hdev⟩ := hunwanted a ha
    cases l with
    | irReceive => simpa [readIn, hl] using hir rfl
    | deviceSignal => simpa [readIn, hl] using hdev rfl
    | irEmit => exact absurd hl (opReads_ne_irEmit i)
  exact ⟨t, hrun, hregs, outputs_congr hregs hparams⟩

end Sys2Proof.Safety

/-! ## How long a relay takes at least, and that it repeats itself -/

namespace Sys2Proof.Safety

open Sys2Proof.Machine

/-- The least number of steps without `rst` from the operation `i` with the count `c` to the next kick. -/
def stepsToKick (i : Instr) (c : Count) : Nat :=
  match i with
  | .dspIr => 2
  | .dspDev => 1
  | .dspKick => 0
  | .i2dClaim => 39
  | .i2dInit => 38
  | .i2dReset => 37
  | .i2dStart => 36
  | .i2dDataR => 35 - 2 * c.toNat
  | .i2dDataF => 34 - 2 * c.toNat
  | .i2dStop => 3
  | .i2dRelease => 2
  | .d2iOn => 37
  | .d2iReset => 36
  | .d2iStart => 35
  | .d2iDataR => 34 - 2 * c.toNat
  | .d2iDataF => 33 - 2 * c.toNat
  | .d2iStop => 2
  | .d2iGuard => 1

theorem stepsToKick_opNext (i : Instr) (read : Level) (r : Regs) :
    stepsToKick i r.cnt ≤ stepsToKick (opNext i read (decide (r.cnt = 15#4))) (rowDone i read r).cnt + 1 := by
  have hc := r.cnt.isLt
  by_cases h : r.cnt = 15#4
  · cases i <;> cases read <;> simp [stepsToKick, opNext, rowDone, opWrites, h]
  · have hsucc := count_succ_toNat h
    cases i <;> cases read <;> simp [stepsToKick, opNext, rowDone, opWrites, h] <;> omega

/-- One row brings the kick nearer by one step at most. -/
theorem stepsToKick_tableRow (i : Instr) (read : Level) (r : Regs) :
    stepsToKick i r.cnt ≤ stepsToKick (successor i read (decide (r.cnt = 15#4))) (tableRow i read r).cnt + 1 := by
  by_cases h : Stalls i read
  · rw [successor, if_pos h, tableRow_of_stalls h]
    exact Nat.le_succ _
  · rw [successor, if_neg h, tableRow_of_not_stalls h]
    exact stepsToKick_opNext i read r

theorem stepsToKick_le_of_runSteps {n : Nat} {s t : State} {i j : Instr} (hp : s.phase = encode i)
    (hq : t.phase = encode j) (hfree : restartFree n s = true) (h : runSteps n s = .next t) :
    stepsToKick i s.cnt ≤ stepsToKick j t.cnt + n := by
  induction n generalizing s i with
  | zero =>
    cases h
    rw [encode_injective (hp.symm.trans hq)]
    exact Nat.le_add_right _ _
  | succ n ih =>
    obtain ⟨a, ha, hrun⟩ := runSteps_succ_cases h
    obtain ⟨hr, hfree⟩ := restartFree_succ hfree
    have hregs : a.regs = tableRow i (readIn i s.sample) s.regs := by
      rw [regs_of_step hr ha, stepRegs_eq (r := s.regs) hp]
    have hrow := stepsToKick_tableRow i (readIn i s.sample) s.regs
    have hpa := (congrArg Regs.phase hregs).trans (tableRow_phase (r := s.regs) hp _)
    have hrest := ih hpa (hfree a ha) hrun
    rw [← hregs] at hrow
    simp only [regs_cnt] at hrow hrest
    omega

/-- Settles O50: the steps to the kick drop by one a step at most, from 39 at the claim and 37 at `D2I_ON`; 1 is left at
`DSP_DEV`; and a `DSP_IR` that reads low is one step before the claim. -/
theorem noRelayRunIsShorterThanItsEdges : Obligations.NoRelayRunIsShorterThanItsEdges := by
  intro n s t hfree h
  refine ⟨fun hp hq => ?_, fun hp hq => ?_, fun hp hlow hq => ?_⟩
  · have hle : 39 ≤ 1 + n := stepsToKick_le_of_runSteps hp hq hfree h
    omega
  · have hle : 37 ≤ 0 + n := stepsToKick_le_of_runSteps hp hq hfree h
    omega
  · cases n with
    | zero =>
      cases h
      exact absurd (encode_injective (hp.symm.trans hq)) (by decide)
    | succ n =>
      obtain ⟨hr, hfree⟩ := restartFree_succ hfree
      have hfirst := step_of_exec hp hr ((exec_dspIr s).trans (congrArg _ (checkLine_of_low hlow)))
      have hle : 39 ≤ 0 + n :=
        stepsToKick_le_of_runSteps (i := .i2dClaim) rfl hq (hfree _ hfirst)
          ((runSteps_succ_of_step hfirst).symm.trans h)
      omega

/-- The registers without what `dev_drv` holds. -/
def forgetDrive (r : Regs) : Regs := { r with devDrv := .deasserted }

/-- Nothing but `dev_drv` itself depends on `dev_drv`. -/
theorem forgetDrive_tableRow (i : Instr) (read : Level) (r : Regs) :
    forgetDrive (tableRow i read r) = forgetDrive (tableRow i read (forgetDrive r)) := by
  by_cases h : Stalls i read
  · rw [tableRow_of_stalls h, tableRow_of_stalls h]
    rfl
  · rw [tableRow_of_not_stalls h, tableRow_of_not_stalls h]
    rfl

theorem forgetDrive_stepRegs (r : Regs) (a : Sample) :
    forgetDrive (stepRegs r a) = forgetDrive (stepRegs (forgetDrive r) a) := by
  have hp : (forgetDrive r).phase = r.phase := rfl
  rw [stepRegs, stepRegs, hp]
  cases decode r.phase with
  | ok i => exact forgetDrive_tableRow i _ r
  | error _ => rfl

theorem forgetDrive_runRegs_congr {r r' : Regs} (h : forgetDrive r = forgetDrive r') (l : List Sample) :
    forgetDrive (runRegs r l) = forgetDrive (runRegs r' l) := by
  induction l generalizing r r' with
  | nil => exact h
  | cons a l ih =>
    refine ih ?_
    rw [forgetDrive_stepRegs, h, ← forgetDrive_stepRegs]

/-- Outside the data phases the invariant leaves only the drive open. -/
theorem forgetDrive_eq_of_relayInv {r r' : Regs} {i : Instr} (h : RelayInv r) (h' : RelayInv r')
    (hp : r.phase = encode i) (hp' : r'.phase = encode i) (hi : i ∉ dataOps) : forgetDrive r = forgetDrive r' := by
  have hat := (relayInv_iff hp).1 h
  have hat' := (relayInv_iff hp').1 h'
  simp [forgetDrive, hp, hp', hat.direction, hat'.direction, hat.emitter, hat'.emitter, hat.countIdle hi,
    hat'.countIdle hi]

/-- R56, R57: the claim and the step after it, whatever is sampled and whatever the drive was. -/
theorem stepRegs_claim_init {r : Regs} (hp : r.phase = encode .i2dClaim) (a b : Sample) :
    stepRegs (stepRegs r a) b = ⟨encode .i2dReset, r.cnt, .output, .deasserted, r.emit⟩ := by
  rw [stepRegs_eq hp, stepRegs_eq (i := .i2dInit) rfl]
  rfl

/-- From the claim on the drive is written before two steps are over, so it makes no difference. -/
theorem runRegs_congr_of_claim {r r' : Regs} (h : forgetDrive r = forgetDrive r') (hp : r.phase = encode .i2dClaim)
    {l : List Sample} (hl : 2 ≤ l.length) : runRegs r l = runRegs r' l := by
  obtain ⟨hphase, hcnt, -, -, hemit⟩ := Regs.mk.inj h
  match l, hl with
  | a :: b :: l, _ =>
    rw [runRegs_cons, runRegs_cons, runRegs_cons, runRegs_cons,
      stepRegs_claim_init hp, stepRegs_claim_init (hphase.symm.trans hp), hcnt, hemit]

/-- Settles O51: the two runs are folds over the same samples, from registers that differ in the drive only. -/
theorem aRelayRunRepeatsItselfOnTheSameInputs : Obligations.ARelayRunRepeatsItselfOnTheSameInputs := by
  intro n s s' t t' hinv hinv' hphase hstart hn hn' htape hfree hfree' h h'
  have ht : t.regs = runRegs s.regs (s.tape.take n) := regs_of_runSteps hinv.1 hfree hn h
  have ht' : t'.regs = runRegs s'.regs (s.tape.take n) := by
    rw [htape]
    exact regs_of_runSteps hinv'.1 hfree' hn' h'
  have hsame : forgetDrive s.regs = forgetDrive s'.regs := by
    obtain hp | hp := hstart <;>
      exact forgetDrive_eq_of_relayInv hinv hinv' hp (hphase.symm.trans hp) (by decide)
  have hend : forgetDrive t.regs = forgetDrive t'.regs := by
    rw [ht, ht']
    exact forgetDrive_runRegs_congr hsame _
  obtain ⟨hp, hcnt, hoe, -, hemit⟩ := Regs.mk.inj hend
  refine ⟨hp, hcnt, hoe, hemit, fun hclaim htwo => congrArg Regs.devDrv (a₁ := t.regs) (a₂ := t'.regs) ?_⟩
  rw [ht, ht']
  exact runRegs_congr_of_claim hsame hclaim (by rw [List.length_take]; omega)

end Sys2Proof.Safety

/-! ## Whole exchanges -/

namespace Sys2Proof.Safety

open Sys2Proof.Machine

/-- The waits of an exchange in their order, each with what `cnt` then holds, and the end behind the last. -/
inductive ExchangePos where
  | reset (c : Count)
  | start (c : Count)
  | dataR (c : Count)
  | dataF (c : Count)
  | stop
  | done

namespace ExchangePos

/-- What `cnt` holds at the position. -/
def cnt : ExchangePos → Count
  | .reset c | .start c | .dataR c | .dataF c => c
  | .stop | .done => 0#4

/-- The level that the wait wants; at the end, the one that a further wait would (R64, R72). -/
def wants : ExchangePos → Level
  | .reset _ | .dataR _ | .stop => .high
  | .start _ | .dataF _ | .done => .low

/-- The position behind the wait. -/
def next : ExchangePos → ExchangePos
  | .reset c => .start c
  | .start _ => .dataR 0#4
  | .dataR c => .dataF c
  | .dataF c => if c = 15#4 then .stop else .dataR (c + 1#4)
  | .stop | .done => .done

/-- The waits that are left, this one included. -/
def left : ExchangePos → Nat
  | .reset _ => 35
  | .start _ => 34
  | .dataR c => 33 - 2 * c.toNat
  | .dataF c => 32 - 2 * c.toNat
  | .stop => 1
  | .done => 0

/-- The position after the sample `a`. -/
def after (line : Sample → Level) (p : ExchangePos) (a : Sample) : ExchangePos :=
  if line a = p.wants then p.next else p

theorem left_next {p : ExchangePos} (hp : p ≠ .done) : p.next.left + 1 = p.left := by
  cases p with
  | dataF c =>
    by_cases h : c = 15#4
    · subst h
      rfl
    · have hsucc := count_succ_toNat h
      have hlt := (c + 1#4).isLt
      simp only [next, h, if_false, left]
      omega
  | dataR c =>
    have hlt := c.isLt
    simp only [next, left]
    omega
  | done => exact absurd rfl hp
  | _ => rfl

theorem eq_done_of_left_eq_zero {p : ExchangePos} (h : p.left = 0) : p = .done := by
  by_contra hp
  have := left_next hp
  omega

theorem wants_next {p : ExchangePos} (hp : p ≠ .done) : p.next.wants = p.wants.flip := by
  cases p with
  | dataF c => by_cases h : c = 15#4 <;> simp [next, h, wants, Level.flip]
  | done => exact absurd rfl hp
  | _ => rfl

/-- After any sample, the level that the exchange shows is the one just sampled. -/
theorem wants_after {line : Sample → Level} {p : ExchangePos} (hp : p ≠ .done) (a : Sample) :
    (p.after line a).wants.flip = line a := by
  by_cases h : line a = p.wants
  · simp [after, h, wants_next hp]
  · rw [after, if_neg h, level_eq_flip_of_ne h]

theorem after_of_wanted {line : Sample → Level} {p : ExchangePos} {a : Sample} (h : line a = p.wants) :
    p.after line a = p.next :=
  if_pos h

theorem after_of_unwanted {line : Sample → Level} {p : ExchangePos} {a : Sample} (h : line a ≠ p.wants) :
    p.after line a = p :=
  if_neg h

end ExchangePos

/-- The samples `l` take the exchange on `line` from `p` to `q`, and none comes after its end. -/
def Feeds (line : Sample → Level) : ExchangePos → List Sample → ExchangePos → Prop
  | p, [], q => p = q
  | p, a :: l, q => p ≠ .done ∧ Feeds line (p.after line a) l q

theorem feeds_stalls {line : Sample → Level} {p q : ExchangePos} {l l' : List Sample} (hp : p ≠ .done)
    (hl : ∀ a ∈ l, line a ≠ p.wants) (h : Feeds line p l' q) : Feeds line p (l ++ l') q := by
  induction l with
  | nil => exact h
  | cons a l ih =>
    obtain ⟨ha, hl⟩ := List.forall_mem_cons.1 hl
    refine ⟨hp, ?_⟩
    rw [ExchangePos.after_of_unwanted ha]
    exact ih hl

theorem samplesOf_cons (w : WaitInput) (ws : List WaitInput) :
    samplesOf (w :: ws) = w.stalls ++ w.last :: samplesOf ws := by
  simp [samplesOf, WaitInput.samples]

theorem alternating_cons {line : Sample → Level} {v : Level} {w : WaitInput} {ws : List WaitInput} :
    alternating line v (w :: ws) = true ↔
      (∀ a ∈ w.stalls, line a ≠ v) ∧ line w.last = v ∧ alternating line v.flip ws = true := by
  simp [alternating, and_assoc]

/-- Waits that see alternating levels, as many as are left, take the exchange to its end. -/
theorem feeds_of_alternating {line : Sample → Level} {ws : List WaitInput} {p : ExchangePos}
    (h : alternating line p.wants ws = true) (hlen : ws.length = p.left) : Feeds line p (samplesOf ws) .done := by
  induction ws generalizing p with
  | nil => exact ExchangePos.eq_done_of_left_eq_zero hlen.symm
  | cons w ws ih =>
    obtain ⟨hstalls, hlast, hrest⟩ := alternating_cons.1 h
    have hp : p ≠ .done := by
      rintro rfl
      cases hlen
    have hleft := ExchangePos.left_next hp
    rw [samplesOf_cons]
    refine feeds_stalls hp hstalls ⟨hp, ?_⟩
    rw [ExchangePos.after_of_wanted hlast]
    refine ih (by rwa [ExchangePos.wants_next hp]) ?_
    rw [List.length_cons] at hlen
    omega

theorem changes_stalls {line : Sample → Level} {v : Level} {l : List Sample} (h : ∀ a ∈ l, line a = v)
    (m : List Level) : changes (v :: (l.map line ++ m)) = changes (v :: m) := by
  induction l with
  | nil => rfl
  | cons a l ih =>
    obtain ⟨ha, hl⟩ := List.forall_mem_cons.1 h
    simp [ha, changes, ih hl]

/-- C1: the level changes once a wait, and at no stall. -/
theorem changes_samplesOf {line : Sample → Level} {v : Level} {ws : List WaitInput}
    (h : alternating line v ws = true) : changes (v.flip :: (samplesOf ws).map line) = ws.length := by
  induction ws generalizing v with
  | nil => rfl
  | cons w ws ih =>
    obtain ⟨hstalls, hlast, hrest⟩ := alternating_cons.1 h
    have hne : v.flip ≠ v := level_flip_ne v
    have hih := ih hrest
    rw [level_flip_flip] at hih
    rw [samplesOf_cons, List.map_append, changes_stalls fun a ha => level_eq_flip_of_ne (hstalls a ha), List.map_cons,
      hlast, List.length_cons, changes, if_neg hne, hih, Nat.add_comm]

/-- A relay as the operation table has it: the line that it follows, its operation and its registers at each position of
an exchange, each wait on that line for the level that the position wants, and each row leading to the next position. -/
structure Relay where
  line : Sample → Level
  op : ExchangePos → Instr
  regs : ExchangePos → Regs
  regs_phase : ∀ p, (regs p).phase = encode (op p)
  readIn_op : ∀ {p} a, p ≠ .done → readIn (op p) a = line a
  opWants_op : ∀ {p}, p ≠ .done → opWants (op p) = some p.wants
  rowDone_regs : ∀ {p}, p ≠ .done → rowDone (op p) p.wants (regs p) = regs p.next

/-- One sample takes a relay from the registers of a position to those of the position after it. -/
theorem Relay.stepRegs_regs (R : Relay) {p : ExchangePos} (a : Sample) (hp : p ≠ .done) :
    stepRegs (R.regs p) a = R.regs (p.after R.line a) := by
  have hread := R.readIn_op a hp
  have hwants := R.opWants_op hp
  by_cases h : R.line a = p.wants
  · have hgo : ¬Stalls (R.op p) p.wants := fun hst => hst.2 hwants
    rw [ExchangePos.after_of_wanted h, stepRegs_eq (R.regs_phase p), hread, h, tableRow_of_not_stalls hgo,
      R.rowDone_regs hp]
  · rw [ExchangePos.after_of_unwanted h, stepRegs_of_unwanted (R.regs_phase p) hwants (hread ▸ h)]

/-- The operation of `ir2device` at a position (R64). -/
def ir2deviceOp : ExchangePos → Instr
  | .reset _ => .i2dReset
  | .start _ => .i2dStart
  | .dataR _ => .i2dDataR
  | .dataF _ => .i2dDataF
  | .stop => .i2dStop
  | .done => .i2dRelease

/-- The operation of `device2ir` at a position (R72). -/
def device2irOp : ExchangePos → Instr
  | .reset _ => .d2iReset
  | .start _ => .d2iStart
  | .dataR _ => .d2iDataR
  | .dataF _ => .d2iDataF
  | .stop => .d2iStop
  | .done => .d2iGuard

/-- The registers of `ir2device` at a position: the line is claimed and shows the level last waited for. -/
def ir2deviceRegs (e : Emitter) (p : ExchangePos) : Regs :=
  ⟨encode (ir2deviceOp p), p.cnt, .output, Drive.ofLevel p.wants.flip, e⟩

/-- The registers of `device2ir` at a position: the emitter shows the inverse of the level last waited for. -/
def device2irRegs (oe : Direction) (drv : Drive) (p : ExchangePos) : Regs :=
  ⟨encode (device2irOp p), p.cnt, oe, drv, Emitter.ofLevel p.wants.flip⟩

/-- `ir2device` with the emitter at `e` throughout. -/
def ir2deviceRelay (e : Emitter) : Relay where
  line := Sample.irRx
  op := ir2deviceOp
  regs := ir2deviceRegs e
  regs_phase _ := rfl
  readIn_op {p} _ hp := by
    cases p with
    | done => exact absurd rfl hp
    | _ => rfl
  opWants_op {p} hp := by
    cases p with
    | done => exact absurd rfl hp
    | _ => rfl
  rowDone_regs {p} hp := by
    cases p with
    | done => exact absurd rfl hp
    | dataF c =>
      by_cases h : c = 15#4 <;>
        simp [ir2deviceRegs, ir2deviceOp, ExchangePos.wants, ExchangePos.next, ExchangePos.cnt, h, rowDone, opNext, opWrites,
          Level.flip, Drive.ofLevel]
    | _ => rfl

/-- `device2ir` with the direction and the drive of DEVICE_SIGNAL at `oe` and `drv` throughout. -/
def device2irRelay (oe : Direction) (drv : Drive) : Relay where
  line := Sample.devIn
  op := device2irOp
  regs := device2irRegs oe drv
  regs_phase _ := rfl
  readIn_op {p} _ hp := by
    cases p with
    | done => exact absurd rfl hp
    | _ => rfl
  opWants_op {p} hp := by
    cases p with
    | done => exact absurd rfl hp
    | _ => rfl
  rowDone_regs {p} hp := by
    cases p with
    | done => exact absurd rfl hp
    | dataF c =>
      by_cases h : c = 15#4 <;>
        simp [device2irRegs, device2irOp, ExchangePos.wants, ExchangePos.next, ExchangePos.cnt, h, rowDone, opNext, opWrites,
          Level.flip, Emitter.ofLevel]
    | _ => rfl

theorem runRegs_of_feeds (R : Relay) {p q : ExchangePos} {l : List Sample} (h : Feeds R.line p l q) :
    runRegs (R.regs p) l = R.regs q := by
  induction l generalizing p with
  | nil => exact congrArg R.regs h
  | cons a l ih =>
    obtain ⟨hp, hrest⟩ := h
    rw [runRegs_cons, R.stepRegs_regs a hp]
    exact ih hrest

/-- R64, R72: after every sample of an exchange the relay is at a position that shows the level just sampled. -/
theorem runRegs_take_of_feeds (R : Relay) {p q : ExchangePos} {l : List Sample} (h : Feeds R.line p l q) {m : Nat}
    {a : Sample} (ha : l[m]? = some a) :
    ∃ p' : ExchangePos, runRegs (R.regs p) (l.take (m + 1)) = R.regs p' ∧ p'.wants.flip = R.line a := by
  induction l generalizing p m with
  | nil => cases ha
  | cons b l ih =>
    obtain ⟨hp, hrest⟩ := h
    rw [List.take_succ_cons, runRegs_cons, R.stepRegs_regs b hp]
    cases m with
    | zero =>
      cases ha
      exact ⟨_, rfl, ExchangePos.wants_after hp a⟩
    | succ m => exact ih hrest ha

theorem runSteps_take_of_tape {l rest : List Sample} {s : State} (hs : SafeState s) (htape : s.tape = l ++ rest)
    (hpow : noPowerCycle l = true) (hwdt : s.wdtCnt + l.length ≤ s.params.wdtTimeout.val) {k : Nat}
    (hk : k ≤ l.length) :
    ∃ u, runSteps k s = .next u ∧ u.regs = runRegs s.regs (l.take k) := by
  have hcut : s.tape = l.take k ++ (l.drop k ++ rest) := by rw [htape, ← List.append_assoc, List.take_append_drop]
  have hlen : (l.take k).length = k := List.length_take_of_le hk
  rw [← List.take_append_drop k l, noPowerCycle_append] at hpow
  obtain ⟨u, hrun, -, hregs⟩ := runSteps_of_tape hs hcut hpow.1 (by omega)
  exact ⟨u, hlen ▸ hrun, hregs⟩

/-- R63: after the last wait, `I2D_RELEASE` gives the line up with the drive asserted. -/
theorem stepRegs_release (e : Emitter) (a : Sample) :
    stepRegs (ir2deviceRegs e .done) a = ⟨encode .dspDev, 0#4, .input, .asserted, e⟩ := by
  rw [stepRegs_eq (i := .i2dRelease) rfl]
  rfl

/-- Settles O48: the claim and the step after it lead to the first wait; the samples feed the 35 waits, at each of which
the registers are those of its position; and the release follows (R64). -/
theorem ir2DeviceReplaysTheWholeExchange : Obligations.Ir2DeviceReplaysTheWholeExchange := by
  intro s claim init release ws rest hp ⟨hlen, halt⟩ htape hpow hwdt
  have hs := safeState_of_phase hp
  have htape' : s.tape = (claim :: init :: (samplesOf ws ++ [release])) ++ rest := by simp [htape]
  have hwdt' : s.wdtCnt + (claim :: init :: (samplesOf ws ++ [release])).length ≤ s.params.wdtTimeout.val := by
    simp only [List.length_cons, List.length_append, List.length_nil]
    omega
  have hbegin : stepRegs (stepRegs s.regs claim) init = (ir2deviceRelay s.emit).regs (.reset s.cnt) :=
    stepRegs_claim_init (r := s.regs) hp claim init
  have hfeeds : Feeds (ir2deviceRelay s.emit).line (.reset s.cnt) (samplesOf ws) .done := feeds_of_alternating halt hlen
  refine ⟨?_, ?_, fun m a ha => ?_, (changes_samplesOf halt).trans hlen⟩
  · obtain ⟨t, hrun, hrest, hregs⟩ := runSteps_of_tape hs htape' hpow hwdt'
    refine ⟨t, by simpa using hrun, hrest, hregs.trans ?_⟩
    rw [runRegs_cons, runRegs_cons, hbegin, runRegs_append, runRegs_of_feeds _ hfeeds]
    exact stepRegs_release s.emit release
  · obtain ⟨u, hrun, hregs⟩ := runSteps_take_of_tape hs htape' hpow hwdt' (k := 2) (by simp)
    have hu : u.regs = (ir2deviceRelay s.emit).regs (.reset s.cnt) := hregs.trans hbegin
    exact ⟨u, hrun, congrArg Regs.devOe hu, congrArg Regs.devDrv hu⟩
  · have hm : m < (samplesOf ws).length := (List.getElem?_eq_some_iff.1 ha).1
    obtain ⟨u, hrun, hregs⟩ :=
      runSteps_take_of_tape hs htape' hpow hwdt' (k := m + 3)
        (by simp only [List.length_cons, List.length_append]; omega)
    obtain ⟨p, hat, hshown⟩ := runRegs_take_of_feeds _ hfeeds ha
    have hu : u.regs = (ir2deviceRelay s.emit).regs p := by
      rw [hregs, List.take_succ_cons, List.take_succ_cons, List.take_append_of_le_length hm, runRegs_cons,
        runRegs_cons, hbegin]
      exact hat
    have hdrv : u.devDrv = Drive.ofLevel p.wants.flip := congrArg Regs.devDrv hu
    exact ⟨u, hrun, congrArg Regs.devOe hu, hdrv.trans (congrArg _ hshown), congrArg Regs.emit hu⟩

/-- R65: `D2I_ON` leads to the first wait with the emitter on. -/
theorem stepRegs_d2iOn {r : Regs} (hp : r.phase = encode .d2iOn) (a : Sample) :
    stepRegs r a = device2irRegs r.devOe r.devDrv (.reset r.cnt) := by
  rw [stepRegs_eq hp]
  rfl

/-- R71: at the guard, samples with IR_RECEIVE low change nothing. -/
theorem runRegs_of_echo (oe : Direction) (drv : Drive) {echo : List Sample} (h : ∀ a ∈ echo, a.irRx = .low) :
    runRegs (device2irRegs oe drv .done) echo = device2irRegs oe drv .done := by
  refine runRegs_of_stalls fun a ha => stepRegs_of_unwanted (i := .d2iGuard) (w := .high) rfl rfl ?_
  exact level_ne_high_iff.2 (h a ha)

/-- R71: a sample with IR_RECEIVE high ends the guard. -/
theorem stepRegs_guard_done (oe : Direction) (drv : Drive) {a : Sample} (h : a.irRx = .high) :
    stepRegs (device2irRegs oe drv .done) a = ⟨encode .dspKick, 0#4, oe, drv, .off⟩ := by
  have hread : readIn .d2iGuard a = .high := h
  rw [stepRegs_eq (i := .d2iGuard) rfl, hread]
  rfl

/-- Settles O49: `D2I_ON` leads to the first wait; the samples feed the 35 waits, at each of which the registers are
those of its position; and the guard sits out the echo (R72). -/
theorem device2IrReplaysTheWholeExchange : Obligations.Device2IrReplaysTheWholeExchange := by
  intro s on last ws echo rest hp ⟨hlen, halt⟩ hecho hlast htape hpow hwdt
  have hs := safeState_of_phase hp
  have htape' : s.tape = (on :: (samplesOf ws ++ (echo ++ [last]))) ++ rest := by simp [htape]
  have hwdt' : s.wdtCnt + (on :: (samplesOf ws ++ (echo ++ [last]))).length ≤ s.params.wdtTimeout.val := by
    simp only [List.length_cons, List.length_append, List.length_nil]
    omega
  have hbegin : stepRegs s.regs on = (device2irRelay s.devOe s.devDrv).regs (.reset s.cnt) :=
    stepRegs_d2iOn (r := s.regs) hp on
  have hfeeds : Feeds (device2irRelay s.devOe s.devDrv).line (.reset s.cnt) (samplesOf ws) .done :=
    feeds_of_alternating halt hlen
  have hguard : runRegs (stepRegs s.regs on) (samplesOf ws) = device2irRegs s.devOe s.devDrv .done := by
    rw [hbegin]
    exact runRegs_of_feeds _ hfeeds
  refine ⟨?_, ?_, fun m a ha => ?_, fun m hm => ?_, (changes_samplesOf halt).trans hlen⟩
  · obtain ⟨t, hrun, hrest, hregs⟩ := runSteps_of_tape hs htape' hpow hwdt'
    refine ⟨t, by simpa [Nat.add_assoc] using hrun, hrest, hregs.trans ?_⟩
    rw [runRegs_cons, runRegs_append, hguard, runRegs_append, runRegs_of_echo _ _ hecho]
    exact stepRegs_guard_done _ _ hlast
  · obtain ⟨u, hrun, hregs⟩ := runSteps_take_of_tape hs htape' hpow hwdt' (k := 1) (by simp)
    exact ⟨u, hrun, congrArg Regs.emit (hregs.trans hbegin)⟩
  · have hm : m < (samplesOf ws).length := (List.getElem?_eq_some_iff.1 ha).1
    obtain ⟨u, hrun, hregs⟩ :=
      runSteps_take_of_tape hs htape' hpow hwdt' (k := m + 2)
        (by simp only [List.length_cons, List.length_append]; omega)
    obtain ⟨p, hat, hshown⟩ := runRegs_take_of_feeds _ hfeeds ha
    have hu : u.regs = (device2irRelay s.devOe s.devDrv).regs p := by
      rw [hregs, List.take_succ_cons, List.take_append_of_le_length hm, runRegs_cons, hbegin]
      exact hat
    have hemit : u.emit = Emitter.ofLevel p.wants.flip := congrArg Regs.emit hu
    exact ⟨u, hrun, hemit.trans (congrArg _ hshown), congrArg Regs.devOe hu, congrArg Regs.devDrv hu⟩
  · obtain ⟨u, hrun, hregs⟩ :=
      runSteps_take_of_tape hs htape' hpow hwdt' (k := (samplesOf ws).length + m + 1)
        (by simp only [List.length_cons, List.length_append]; omega)
    have hu : u.regs = device2irRegs s.devOe s.devDrv .done := by
      rw [hregs, List.take_succ_cons, List.take_length_add_append, List.take_append_of_le_length hm, runRegs_cons,
        runRegs_append, hguard]
      exact runRegs_of_echo _ _ fun a ha => hecho a (List.mem_of_mem_take ha)
    exact ⟨u, by rwa [Nat.add_right_comm] at hrun, congrArg Regs.phase hu, congrArg Regs.emit hu⟩

end Sys2Proof.Safety

/-! ## Nothing in the invariant is unreachable -/

namespace Sys2Proof.Safety

open Sys2Proof.Machine

/-- Some samples lead to the registers `r` from the reset registers with `DEV_DRV_RESET` at `d`. -/
def ReachedFrom (d : Drive) (r : Regs) : Prop :=
  ∃ l, noPowerCycle l = true ∧ runRegs (State.resetWith { devDrvReset := d } []).regs l = r

/-- Parameters with `DEV_DRV_RESET` at `d` and a timeout behind `n` steps. -/
def patientParams (d : Drive) (n : Nat) : Params := { devDrvReset := d, wdtTimeout := ⟨n + 1, Nat.succ_pos n⟩ }

/-- A timeout behind the last of the samples makes of them a run without restart. -/
theorem exists_run_of_reachedFrom {d : Drive} {r : Regs} (h : ReachedFrom d r) :
    ∃ (p : Params) (tape : List Sample) (n : Nat) (t : State),
      p.devDrvReset = d ∧ runSteps n (State.resetWith p tape) = .next t ∧ t.regs = r := by
  obtain ⟨l, hpow, hl⟩ := h
  have hwdt : (State.resetWith (patientParams d l.length) l).wdtCnt + l.length ≤
      (patientParams d l.length).wdtTimeout.val := by
    rw [resetWith_wdtCnt, Nat.zero_add]
    exact Nat.le_succ _
  obtain ⟨t, hrun, -, ht⟩ :=
    runSteps_of_tape (safeState_of_phase (i := .dspIr) rfl) (List.append_nil l).symm hpow hwdt
  exact ⟨patientParams d l.length, l, l.length, t, rfl, hrun, ht.trans hl⟩

/-- The sample with both lines at one level. -/
def bothLines (v : Level) : Sample := ⟨false, v, v⟩

theorem ReachedFrom.step {d : Drive} {r r' : Regs} (h : ReachedFrom d r) (v : Level)
    (hr : stepRegs r (bothLines v) = r') : ReachedFrom d r' := by
  obtain ⟨l, hpow, hl⟩ := h
  refine ⟨l ++ [bothLines v], noPowerCycle_append.2 ⟨hpow, rfl⟩, ?_⟩
  rw [runRegs_append, hl]
  exact hr

/-- The registers that the invariant fixes at the phase of `i`, with the count and the drive that it leaves open. -/
def invRegs (i : Instr) (c : Count) (v : Drive) : Regs := ⟨encode i, c, directionAt i, v, emitterAt i⟩

theorem eq_invRegs {i : Instr} {r : Regs} (hp : r.phase = encode i) (h : InvAt i r) :
    r = invRegs i r.cnt r.devDrv := by
  simp [invRegs, ← hp, ← h.direction, ← h.emitter]

theorem stepRegs_invRegs (i : Instr) (c : Count) (v : Drive) (w : Level) :
    stepRegs (invRegs i c v) (bothLines w) = tableRow i (readIn i (bothLines w)) (invRegs i c v) :=
  stepRegs_eq rfl _

theorem ReachedFrom.op {d v v' : Drive} {i j : Instr} {c c' : Count} (h : ReachedFrom d (invRegs i c v)) (w : Level)
    (hr : tableRow i (readIn i (bothLines w)) (invRegs i c v) = invRegs j c' v') : ReachedFrom d (invRegs j c' v') :=
  h.step w ((stepRegs_invRegs i c v w).trans hr)

/-! Once the first wait of an exchange is reached, all its positions are. -/

section
variable {R : Relay} {d : Drive} (hline : ∀ v, R.line (bothLines v) = v)
include hline

theorem ReachedFrom.next {p : ExchangePos} (h : ReachedFrom d (R.regs p)) (hp : p ≠ .done) :
    ReachedFrom d (R.regs p.next) := by
  refine h.step p.wants ?_
  rw [R.stepRegs_regs _ hp, ExchangePos.after_of_wanted (hline p.wants)]

theorem ReachedFrom.dataR (h : ReachedFrom d (R.regs (.reset 0#4))) (n : Nat) (hn : n < 16) :
    ReachedFrom d (R.regs (.dataR (BitVec.ofNat 4 n))) := by
  induction n with
  | zero => exact (h.next hline nofun).next hline nofun
  | succ n ih =>
    have hcount : (ExchangePos.dataF (BitVec.ofNat 4 n)).next = .dataR (BitVec.ofNat 4 (n + 1)) := by
      have hmore : BitVec.ofNat 4 n ≠ 15#4 := fun he => by
        have := congrArg BitVec.toNat he
        simp only [BitVec.toNat_ofNat] at this
        omega
      rw [ExchangePos.next, if_neg hmore, BitVec.ofNat_add]
    exact hcount ▸ ((ih (by omega)).next hline nofun).next hline nofun

theorem ReachedFrom.exchange (h : ReachedFrom d (R.regs (.reset 0#4))) :
    (∀ c, ReachedFrom d (R.regs (.dataR c))) ∧ (∀ c, ReachedFrom d (R.regs (.dataF c))) ∧
      ReachedFrom d (R.regs (.start 0#4)) ∧ ReachedFrom d (R.regs .stop) ∧ ReachedFrom d (R.regs .done) := by
  have hR (c : Count) : ReachedFrom d (R.regs (.dataR c)) := by
    simpa using ReachedFrom.dataR hline h c.toNat c.isLt
  have hF (c : Count) : ReachedFrom d (R.regs (.dataF c)) := (hR c).next hline nofun
  have hstop : ReachedFrom d (R.regs .stop) := (hF 15#4).next hline nofun
  exact ⟨hR, hF, h.next hline nofun, hstop, hstop.next hline nofun⟩

end

/-! From the first check with some drive, all phases but the data phases of `ir2device` are reached with that drive, and
`ir2device` with the drives of its phases. -/

section
variable {d v : Drive} (h : ReachedFrom d (invRegs .dspIr 0#4 v))
include h

theorem reached_dspDev : ReachedFrom d (invRegs .dspDev 0#4 v) := h.op .high rfl
theorem reached_dspKick : ReachedFrom d (invRegs .dspKick 0#4 v) := (reached_dspDev h).op .high rfl
theorem reached_i2dClaim : ReachedFrom d (invRegs .i2dClaim 0#4 v) := h.op .low rfl
theorem reached_i2dInit : ReachedFrom d (invRegs .i2dInit 0#4 v) := (reached_i2dClaim h).op .low rfl
theorem reached_d2iOn : ReachedFrom d (invRegs .d2iOn 0#4 v) := (reached_dspDev h).op .low rfl

theorem reached_i2dReset : ReachedFrom d ((ir2deviceRelay .off).regs (.reset 0#4)) :=
  (reached_i2dInit h).op (j := .i2dReset) (v' := .deasserted) .low rfl

theorem reached_d2iReset : ReachedFrom d ((device2irRelay .input v).regs (.reset 0#4)) :=
  (reached_d2iOn h).op (j := .d2iReset) .low rfl

end

theorem reached_dspIr_reset (d : Drive) : ReachedFrom d (invRegs .dspIr 0#4 d) := ⟨[], rfl, rfl⟩

/-- After one exchange of `ir2device` the first check is reached with the drive asserted. -/
theorem reached_dspIr_asserted (d : Drive) : ReachedFrom d (invRegs .dspIr 0#4 .asserted) := by
  obtain ⟨-, -, -, -, hdone⟩ := (reached_i2dReset (reached_dspIr_reset d)).exchange fun _ => rfl
  have hdev : ReachedFrom d (invRegs .dspDev 0#4 .asserted) := hdone.step .low (stepRegs_release .off _)
  have hkick : ReachedFrom d (invRegs .dspKick 0#4 .asserted) := hdev.op .high rfl
  exact hkick.op .low rfl

/-- The drive that a run from the reset value `d` can show at the phase of `i`. -/
abbrev DriveReached (d : Drive) (i : Instr) (v : Drive) : Prop := v = d ∨ v = .asserted ∨ i ∈ driveLowOps

/-- Every register tuple of the invariant is reached, but for drives that neither the reset nor a phase of `ir2device`
leaves. -/
theorem reachedFrom_of_invAt {d : Drive} {i : Instr} {r : Regs} (hp : r.phase = encode i) (h : InvAt i r)
    (hdrive : DriveReached d i r.devDrv) : ReachedFrom d r := by
  have hdsp (hi : i ∉ driveLowOps) : ReachedFrom d (invRegs .dspIr 0#4 r.devDrv) := by
    obtain hv | hv | hlow := hdrive
    · exact hv ▸ reached_dspIr_reset r.devDrv
    · exact hv ▸ reached_dspIr_asserted d
    · exact absurd hlow hi
  have hirReset := reached_i2dReset (reached_dspIr_reset d)
  obtain ⟨hirR, hirF, hirStart, hirStop, hirDone⟩ := hirReset.exchange fun _ => rfl
  have hdev (hi : i ∉ driveLowOps) := (reached_d2iReset (hdsp hi)).exchange fun _ => rfl
  have hidle := h.countIdle
  have hlow := h.driveLow
  have hhigh := h.driveHigh
  rw [eq_invRegs hp h]
  cases i with
  | dspIr => rw [hidle (by decide)]; exact hdsp (by decide)
  | dspDev => rw [hidle (by decide)]; exact reached_dspDev (hdsp (by decide))
  | dspKick => rw [hidle (by decide)]; exact reached_dspKick (hdsp (by decide))
  | i2dClaim => rw [hidle (by decide)]; exact reached_i2dClaim (hdsp (by decide))
  | i2dInit => rw [hidle (by decide)]; exact reached_i2dInit (hdsp (by decide))
  | i2dReset => rw [hidle (by decide), hlow (by decide)]; exact hirReset
  | i2dStart => rw [hidle (by decide), hhigh (by decide)]; exact hirStart
  | i2dDataR => rw [hlow (by decide)]; exact hirR _
  | i2dDataF => rw [hhigh (by decide)]; exact hirF _
  | i2dStop => rw [hidle (by decide), hlow (by decide)]; exact hirStop
  | i2dRelease => rw [hidle (by decide), hhigh (by decide)]; exact hirDone
  | d2iOn => rw [hidle (by decide)]; exact reached_d2iOn (hdsp (by decide))
  | d2iReset => rw [hidle (by decide)]; exact reached_d2iReset (hdsp (by decide))
  | d2iStart => rw [hidle (by decide)]; obtain ⟨-, -, hstart, -⟩ := hdev (by decide); exact hstart
  | d2iDataR => obtain ⟨hR, -⟩ := hdev (by decide); exact hR _
  | d2iDataF => obtain ⟨-, hF, -⟩ := hdev (by decide); exact hF _
  | d2iStop => rw [hidle (by decide)]; obtain ⟨-, -, -, hstop, -⟩ := hdev (by decide); exact hstop
  | d2iGuard => rw [hidle (by decide)]; obtain ⟨-, -, -, -, hdone⟩ := hdev (by decide); exact hdone

theorem relayInv_of_run {p : Params} {tape : List Sample} {n : Nat} {t : State}
    (h : runSteps n (State.resetWith p tape) = .next t) : RelayInv t.regs :=
  runSteps_keeps (P := fun s => RelayInv s.regs) stepKeepsTheInvariantOfTheReachableStates (relayInv_resetWith p tape) h

/-- With `DEV_DRV_RESET` at ASSERTED, a deasserted drive is the one that a phase of `ir2device` asks for. -/
abbrev DeassertedByPhase (r : Regs) : Prop := r.devDrv = .deasserted → r.phase ∈ codes driveLowOps

theorem opNext_mem_driveLowOps {i : Instr} (h : (opWrites i).devDrv = some .deasserted) (read : Level) (last : Bool) :
    opNext i read last ∈ driveLowOps := by
  revert h
  cases i <;> cases read <;> cases last <;> decide

theorem driveLowOps_subset_deviceWriteOps : driveLowOps ⊆ deviceWriteOps := by
  decide

theorem deassertedByPhase_tableRow {i : Instr} {r : Regs} (hp : r.phase = encode i) (h : DeassertedByPhase r)
    (read : Level) : DeassertedByPhase (tableRow i read r) := by
  obtain ⟨-, e⟩ | ⟨-, e⟩ := tableRow_cases i read r <;> rw [e]
  · exact h
  · intro hdrv
    refine encode_mem_codes.2 (opNext_mem_driveLowOps ?_ read _)
    cases hw : (opWrites i).devDrv with
    | none =>
      have hkept : r.devDrv = .deasserted := by simpa [rowDone, hw] using hdrv
      have hlow : i ∈ driveLowOps := encode_mem_codes.1 (hp ▸ h hkept)
      exact absurd (driveLowOps_subset_deviceWriteOps hlow) (writes_devDrv_eq_none_iff.1 hw)
    | some v => simpa [rowDone, hw] using hdrv

theorem deassertedByPhase_of_run {p : Params} {tape : List Sample} {n : Nat} {t : State}
    (hp : p.devDrvReset = .asserted) (h : runSteps n (State.resetWith p tape) = .next t) :
    DeassertedByPhase t.regs := by
  have keeps (s u : State) (hs : s.params.devDrvReset = .asserted ∧ DeassertedByPhase s.regs)
      (hu : step s = .next u) : u.params.devDrvReset = .asserted ∧ DeassertedByPhase u.regs := by
    obtain ⟨hasserted, hdrv⟩ := hs
    obtain ⟨-, hparams, -⟩ := step_around hu
    refine ⟨hparams ▸ hasserted, ?_⟩
    obtain ⟨-, rfl⟩ | ⟨hr, -⟩ := step_cases hu
    · intro hlow
      exact absurd (hasserted.symm.trans hlow) (by decide)
    · obtain ⟨i, hp, hregs⟩ := step_row hr hu
      exact hregs ▸ deassertedByPhase_tableRow (r := s.regs) hp hdrv _
  have hreset : DeassertedByPhase (State.resetWith p tape).regs :=
    fun hlow => absurd (hp.symm.trans hlow) (by decide)
  exact (runSteps_keeps keeps ⟨hp, hreset⟩ h).2

/-- Settles O25: a run keeps the invariant, and a deasserted drive to its phases where the reset value is ASSERTED; and
samples lead from the reset state to every register tuple that is left (L1). -/
theorem invariantIsExactlyReachability : Obligations.InvariantIsExactlyReachability := by
  intro r
  refine ⟨⟨fun hinv => ?_, ?_⟩, ⟨fun ⟨hinv, hdrv⟩ => ?_, ?_⟩⟩
  · obtain ⟨i, hp⟩ := exists_op_of_legal hinv.1
    refine exists_run_of_reachedFrom (reachedFrom_of_invAt hp ((relayInv_iff hp).1 hinv) ?_)
    cases hv : r.devDrv <;> simp [DriveReached]
  · rintro ⟨p, tape, n, t, -, hrun, rfl⟩
    exact relayInv_of_run hrun
  · obtain ⟨i, hp⟩ := exists_op_of_legal hinv.1
    refine exists_run_of_reachedFrom (reachedFrom_of_invAt hp ((relayInv_iff hp).1 hinv) ?_)
    cases hv : r.devDrv with
    | asserted => exact .inl rfl
    | deasserted => exact .inr (.inr (encode_mem_codes.1 (hp ▸ hdrv hv)))
  · rintro ⟨p, tape, n, t, hp, hrun, rfl⟩
    exact ⟨relayInv_of_run hrun, deassertedByPhase_of_run hp hrun⟩

end Sys2Proof.Safety
